-- ==== Sys2Proof/Word.lean ====
section
/-! DEFINITION. The word types of the command port (00_scope R3, R8): 32-bit words and 8-bit bytes. -/

namespace Sys2Proof

/-- A 32-bit word: CMD, ARG and RES of a request and its response (R3). -/
abbrev Word := BitVec 32

/-- An 8-bit byte of the staging buffer (R8, R30). -/
abbrev Byte := BitVec 8

end Sys2Proof
end

