-- ==== Sys2Proof/Syntax.lean ====
section
/-! DEFINITION. The 23 commands of the command set GPC-1 (30_encoding R92) and the request that carries one (R90). -/

namespace Sys2Proof

/-- One request `(CMD, ARG)` of the host (R3, R90). -/
structure Request where
  cmd : Word
  arg : Word
  deriving DecidableEq, Repr

/-- A command of GPC-1 with its operands as R91 and R93 cut them; one constructor per row of R92.
The four commands that use ARG carry all 32 bits of it; the others ignore it (R90, I8) and carry none. -/
inductive Instr where
  /-- INIT (R260): PARITY_EN = CMD[0], THRESH = CMD[4:1]. -/
  | init (parityEn : Bool) (thresh : BitVec 4)
  /-- RDREG (R261): REG = CMD[4:0]. -/
  | rdreg (reg : BitVec 5)
  /-- WRFRM (R262): REG = CMD[4:0], the value in ARG. -/
  | wrfrm (reg : BitVec 5) (value : Word)
  /-- SB.CLR (R121). -/
  | sbClr
  /-- SB.PUSH (R122): BYTE = CMD[7:0], PAD = CMD[10:8]. -/
  | sbPush (byte : Byte) (pad : BitVec 3)
  /-- BC.OPEN (R123): USEPAD = CMD[0]. -/
  | bcOpen (usepad : Bool)
  /-- BC.OPENW (R124). -/
  | bcOpenW
  /-- BC.OPENC (R125). -/
  | bcOpenC
  /-- BC.CLOSE (R126). -/
  | bcClose
  /-- BC.PEEK (R127): N = CMD[23:0], a bit count. -/
  | bcPeek (n : BitVec 24)
  /-- BC.ADV (R128): N = CMD[23:0], a bit count. -/
  | bcAdv (n : BitVec 24)
  /-- BC.POS (R129). -/
  | bcPos
  /-- BC.PUT (R130): N = CMD[23:0], a bit count; the bits in ARG[N-1:0]. -/
  | bcPut (n : BitVec 24) (value : Word)
  /-- BC.APPEND (R131): BYTE = CMD[7:0], PAD = CMD[10:8]. -/
  | bcAppend (byte : Byte) (pad : BitVec 3)
  /-- BC.DROP (R132). -/
  | bcDrop
  /-- BC.RDB (R133): N = CMD[23:0], a byte index. -/
  | bcRdb (idx : BitVec 24)
  /-- PAR.COMP (R162): d = ARG[25:2], prev2 = ARG[1:0]. -/
  | parComp (operand : Word)
  /-- PAR.VRFY (R163): W = ARG[31:2], prev2 = ARG[1:0]. -/
  | parVrfy (operand : Word)
  /-- SYNC.SCAN (R181). -/
  | syncScan
  /-- SF.DEC (R212). -/
  | sfDec
  /-- SF.ENC (R215). -/
  | sfEnc
  /-- DEC.RAW (R241). -/
  | decRaw
  /-- DEC.BYTE (R244): BYTE = CMD[7:0], PAD = CMD[10:8]. -/
  | decByte (byte : Byte) (pad : BitVec 3)
  deriving DecidableEq, Repr

/-- The commands that use ARG (30_encoding R92 column ARG, R93); every other command ignores all 32 bits of it (R90). -/
def Instr.usesArg : Instr → Bool
  | .init _ _ => false
  | .rdreg _ => false
  | .wrfrm _ _ => true
  | .sbClr => false
  | .sbPush _ _ => false
  | .bcOpen _ => false
  | .bcOpenW => false
  | .bcOpenC => false
  | .bcClose => false
  | .bcPeek _ => false
  | .bcAdv _ => false
  | .bcPos => false
  | .bcPut _ _ => true
  | .bcAppend _ _ => false
  | .bcDrop => false
  | .bcRdb _ => false
  | .parComp _ => true
  | .parVrfy _ => true
  | .syncScan => false
  | .sfDec => false
  | .sfEnc => false
  | .decRaw => false
  | .decByte _ _ => false

end Sys2Proof
end

