-- ==== Sys2Proof/WellFormed.lean ====
section
/-! DEFINITION. Which commands have an operand value with a meaning: the table of 30_encoding R95.
An ill-formed command still decodes (R99) and answers BadCommand (R95); nothing else about it is refused. -/

namespace Sys2Proof

/-- The operand values that have a meaning (R95): THRESH 1 to 10, REG 0 to 19 for a read and 7 to 19 for a write,
at most 32 bits for one peek or put. Every other operand is legal at every value of its field. -/
def Instr.wf : Instr → Bool
  | .init _ thresh => decide (1 ≤ thresh.toNat) && decide (thresh.toNat ≤ 10)
  | .rdreg reg => decide (reg.toNat ≤ 19)
  | .wrfrm reg _ => decide (7 ≤ reg.toNat) && decide (reg.toNat ≤ 19)
  | .sbClr => true
  | .sbPush _ _ => true
  | .bcOpen _ => true
  | .bcOpenW => true
  | .bcOpenC => true
  | .bcClose => true
  | .bcPeek n => decide (n.toNat ≤ 32)
  | .bcAdv _ => true
  | .bcPos => true
  | .bcPut n _ => decide (n.toNat ≤ 32)
  | .bcAppend _ _ => true
  | .bcDrop => true
  | .bcRdb _ => true
  | .parComp _ => true
  | .parVrfy _ => true
  | .syncScan => true
  | .sfDec => true
  | .sfEnc => true
  | .decRaw => true
  | .decByte _ _ => true

end Sys2Proof
end

