-- ==== Sys2Proof/Decode.lean ====
section
/-! DEFINITION. Decoding a request by the match and mask rows of 30_encoding R92 as R99 says, the encoder written from the
formats of R91, and the host's reading of an opcode-table word. -/

namespace Sys2Proof

/-- Why a CMD is illegal (R95); both answer BadCommand. -/
inductive DecodeError where
  /-- CMD[31:24] is in no row of the table. -/
  | unknownOpcode
  /-- CMD[31:24] is in the table and the row's "zero" field is not zero. -/
  | nonzeroZeroField
  deriving DecidableEq, Repr

/-- CMD[31:24], which alone selects the command (R90). -/
def opcodeOf (cmd : Word) : BitVec 8 := cmd.extractLsb' 24 8

/-- Field N of format N (R91). -/
def fieldN (cmd : Word) : BitVec 24 := cmd.extractLsb' 0 24

/-- Field BYTE of format B (R91). -/
def fieldByte (cmd : Word) : Byte := cmd.extractLsb' 0 8

/-- Field PAD of format B (R91). -/
def fieldPad (cmd : Word) : BitVec 3 := cmd.extractLsb' 8 3

/-- Field REG of format R (R91). -/
def fieldReg (cmd : Word) : BitVec 5 := cmd.extractLsb' 0 5

/-- Field THRESH of format C (R91). -/
def fieldThresh (cmd : Word) : BitVec 4 := cmd.extractLsb' 1 4

/-- The one-bit field in CMD[0]: PARITY_EN of format C, USEPAD of format O (R91). -/
def fieldBit0 (cmd : Word) : Bool := cmd.getLsbD 0

/-- One row of the opcode map (R92): a CMD selects it exactly when `CMD & mask = match`. -/
structure Row where
  matchBits : Word
  mask : Word
  build : Request → Instr

/-- CMD selects the row (R92). -/
def Row.selects (row : Row) (cmd : Word) : Bool := cmd &&& row.mask == row.matchBits

/-- The 23 rows of R92, in its order. -/
def opcodeRows : List Row :=
  [⟨0x01000000, 0xFFFFFFE0, fun r => .init (fieldBit0 r.cmd) (fieldThresh r.cmd)⟩,
   ⟨0x02000000, 0xFFFFFFE0, fun r => .rdreg (fieldReg r.cmd)⟩,
   ⟨0x03000000, 0xFFFFFFE0, fun r => .wrfrm (fieldReg r.cmd) r.arg⟩,
   ⟨0x10000000, 0xFFFFFFFF, fun _ => .sbClr⟩,
   ⟨0x11000000, 0xFFFFF800, fun r => .sbPush (fieldByte r.cmd) (fieldPad r.cmd)⟩,
   ⟨0x20000000, 0xFFFFFFFE, fun r => .bcOpen (fieldBit0 r.cmd)⟩,
   ⟨0x21000000, 0xFFFFFFFF, fun _ => .bcOpenW⟩,
   ⟨0x22000000, 0xFFFFFFFF, fun _ => .bcOpenC⟩,
   ⟨0x23000000, 0xFFFFFFFF, fun _ => .bcClose⟩,
   ⟨0x24000000, 0xFF000000, fun r => .bcPeek (fieldN r.cmd)⟩,
   ⟨0x25000000, 0xFF000000, fun r => .bcAdv (fieldN r.cmd)⟩,
   ⟨0x26000000, 0xFFFFFFFF, fun _ => .bcPos⟩,
   ⟨0x27000000, 0xFF000000, fun r => .bcPut (fieldN r.cmd) r.arg⟩,
   ⟨0x28000000, 0xFFFFF800, fun r => .bcAppend (fieldByte r.cmd) (fieldPad r.cmd)⟩,
   ⟨0x29000000, 0xFFFFFFFF, fun _ => .bcDrop⟩,
   ⟨0x2A000000, 0xFF000000, fun r => .bcRdb (fieldN r.cmd)⟩,
   ⟨0x30000000, 0xFFFFFFFF, fun r => .parComp r.arg⟩,
   ⟨0x31000000, 0xFFFFFFFF, fun r => .parVrfy r.arg⟩,
   ⟨0x40000000, 0xFFFFFFFF, fun _ => .syncScan⟩,
   ⟨0x41000000, 0xFFFFFFFF, fun _ => .sfDec⟩,
   ⟨0x42000000, 0xFFFFFFFF, fun _ => .sfEnc⟩,
   ⟨0x48000000, 0xFFFFFFFF, fun _ => .decRaw⟩,
   ⟨0x49000000, 0xFFFFF800, fun r => .decByte (fieldByte r.cmd) (fieldPad r.cmd)⟩]

/-- R99: the first row that selects the CMD, its fields cut by R91; no row is an illegal CMD (R95).
The rows are disjoint, so the order does not matter; whether a CMD decodes does not depend on ARG. -/
def decode (r : Request) : Except DecodeError Instr :=
  match opcodeRows.find? (fun row => row.selects r.cmd) with
  | some row => .ok (row.build r)
  | none =>
    if opcodeRows.any (fun row => opcodeOf row.matchBits == opcodeOf r.cmd) then .error .nonzeroZeroField
    else .error .unknownOpcode

/-- Format Z (R91): OPC ++ 24 zeros. -/
def formatZ (opc : BitVec 8) : Word := opc ++ 0#24

/-- Format N (R91): OPC ++ N. -/
def formatN (opc : BitVec 8) (n : BitVec 24) : Word := opc ++ n

/-- Format B (R91): OPC ++ 13 zeros ++ PAD ++ BYTE. -/
def formatB (opc : BitVec 8) (byte : Byte) (pad : BitVec 3) : Word := opc ++ (0#13 ++ pad ++ byte)

/-- Format R (R91): OPC ++ 19 zeros ++ REG. -/
def formatR (opc : BitVec 8) (reg : BitVec 5) : Word := opc ++ (0#19 ++ reg)

/-- Format C (R91): OPC ++ 19 zeros ++ THRESH ++ PARITY_EN. -/
def formatC (opc : BitVec 8) (thresh : BitVec 4) (parityEn : Bool) : Word :=
  opc ++ (0#19 ++ thresh ++ BitVec.ofBool parityEn)

/-- Format O (R91): OPC ++ 23 zeros ++ USEPAD. -/
def formatO (opc : BitVec 8) (usepad : Bool) : Word := opc ++ (0#23 ++ BitVec.ofBool usepad)

/-- The words of a command (R91, R92); ARG is 0 for a command that ignores it (log entry 11). -/
def encode : Instr → Request
  | .init p t => ⟨formatC 0x01 t p, 0⟩
  | .rdreg reg => ⟨formatR 0x02 reg, 0⟩
  | .wrfrm reg v => ⟨formatR 0x03 reg, v⟩
  | .sbClr => ⟨formatZ 0x10, 0⟩
  | .sbPush b p => ⟨formatB 0x11 b p, 0⟩
  | .bcOpen u => ⟨formatO 0x20 u, 0⟩
  | .bcOpenW => ⟨formatZ 0x21, 0⟩
  | .bcOpenC => ⟨formatZ 0x22, 0⟩
  | .bcClose => ⟨formatZ 0x23, 0⟩
  | .bcPeek n => ⟨formatN 0x24 n, 0⟩
  | .bcAdv n => ⟨formatN 0x25 n, 0⟩
  | .bcPos => ⟨formatZ 0x26, 0⟩
  | .bcPut n v => ⟨formatN 0x27 n, v⟩
  | .bcAppend b p => ⟨formatB 0x28 b p, 0⟩
  | .bcDrop => ⟨formatZ 0x29, 0⟩
  | .bcRdb n => ⟨formatN 0x2A n, 0⟩
  | .parComp v => ⟨formatZ 0x30, v⟩
  | .parVrfy v => ⟨formatZ 0x31, v⟩
  | .syncScan => ⟨formatZ 0x40, 0⟩
  | .sfDec => ⟨formatZ 0x41, 0⟩
  | .sfEnc => ⟨formatZ 0x42, 0⟩
  | .decRaw => ⟨formatZ 0x48, 0⟩
  | .decByte b p => ⟨formatB 0x49 b p, 0⟩

/-- The request an opcode-table word stands for: the table's bits 31..0 are CMD; bits 63..32, where given, are ARG, and
every bit above `nbits` is 0. -/
def tableRequest (nbits w : Nat) : Request :=
  let bits := w % 2 ^ nbits
  ⟨BitVec.ofNat 32 bits, BitVec.ofNat 32 (bits / 2 ^ 32)⟩

/-- What the decoder reads from an opcode-table word; `none` where it refuses. -/
def decodeTableWord (nbits w : Nat) : Option Instr :=
  match decode (tableRequest nbits w) with
  | .ok i => some i
  | .error _ => none

end Sys2Proof
end

