-- ==== Sys2Proof/Machine/State.lean ====
section
/-! DEFINITION. The state of one GPC instance (10_state, the record at its head), as plain data, and its value after
power-on (70_reset_and_hazards R310). -/

namespace Sys2Proof.Machine

/-- ST, the status codes of 60_exceptions R280. `parityMismatch` has a code and is never returned (R284). -/
inductive Status where
  | ok
  | insufficientData
  | outOfRange
  | unsupportedSubframe
  | parityMismatch
  | badCommand
  | wrongMode
  deriving DecidableEq, Repr

/-- One response `(ST, RES)` of the core (R3, R90). -/
structure Response where
  st : Status
  res : Word
  deriving DecidableEq, Repr

/-- CMODE, the cursor mode (R24). -/
inductive CMode where
  | closed
  | decode
  | encode
  | carry
  deriving DecidableEq, Repr

/-- FSM, the Synchronizer's state machine (R27, R180). -/
inductive Fsm where
  | searching
  | tentativeLock
  | locked
  deriving DecidableEq, Repr

/-- One entry of the staging buffer (R30): a byte and its count of trailing padding bits. -/
structure SBEntry where
  byte : Byte
  pad : BitVec 3
  deriving DecidableEq, Repr

/-- The whole state of one instance. SBN and LEN are the lengths of `sb` and `stream` (10_state, R26, R30).
The last two fields are the model's own: the command port, held in the state so that a step has an input and an
output (log entry 1). -/
structure State where
  /-- BUILT (R22). -/
  built : Bool
  /-- PARITY_EN, CFG[0] (R23). -/
  parityEn : Bool
  /-- THRESH, CFG[4:1] (R23). -/
  thresh : BitVec 4
  /-- CMODE (R24). -/
  cmode : CMode
  /-- SB, the staging buffer (R30), entry 0 first. -/
  sb : List SBEntry
  /-- S, the stream store (R31), bit at BitPosition 0 first. -/
  stream : List Bool
  /-- POS, register 2 (R25); a number of bits, never taken modulo anything (R17, log entry 7). -/
  pos : Nat
  /-- PREV2 (R28): the two stream bits just before `stream`, the later one in bit 0. -/
  prev2 : BitVec 2
  /-- FSM (R27). -/
  fsm : Fsm
  /-- CONSUMED, register 5 (R32). -/
  consumed : Nat
  /-- UNSUP_SEEN (R38). -/
  unsupSeen : Bool
  /-- PARREJ_SEEN (R38). -/
  parrejSeen : Bool
  /-- FRAME_VALID (R37). -/
  frameValid : Bool
  /-- VFLAGS, register 6 (R36): the flag of word w in bits 2w-1 : 2w-2. -/
  vflags : BitVec 20
  /-- TLM, register 7 (R33): RSV, ISF, MSG. -/
  tlm : BitVec 16
  /-- HOW, register 8 (R34): SFID, AS, ALERT, TOW. -/
  how : BitVec 22
  /-- FLD0 to FLD10, registers 9 to 19 (R35). -/
  fld : Vector Word 11
  /-- The requests the host has still to make, the next one first (R3); the model's own field. -/
  requests : List Request
  /-- The response to the last command, none before the first (R3); the model's own field. -/
  response : Option Response
  deriving DecidableEq, Repr

/-- Why the machine would stop with a fault. It has no constructor: no command, state or stream content stops this
machine (R3, R293); a command that cannot run answers a status instead (R290). Log entry 12. -/
inductive Fault where
  deriving DecidableEq, Repr

/-- Why a step would have no meaning. -/
inductive Refusal where
  /-- Raised by `exec` for a command that has no meaning yet; safe, since nothing can be concluded from it. No arm raises it. -/
  | notModelled (mnemonic : String)
  deriving DecidableEq, Repr

/-- The three outcomes of a step over this state. -/
abbrev Result := Host.Outcome State Fault Refusal

/-- Power-on (R310): BUILT = 0 is the spec's; every other value is unspecified there (R40) and unobservable (I1), and is
named here as I1 allows, the state after an INIT with parity off and threshold 1, but not built. DESIGN CHOICE, log entry 2. -/
def State.reset : State where
  built := false
  parityEn := false
  thresh := 1
  cmode := .closed
  sb := []
  stream := []
  pos := 0
  prev2 := 0
  fsm := .searching
  consumed := 0
  unsupSeen := false
  parrejSeen := false
  frameValid := false
  vflags := 0
  tlm := 0
  how := 0
  fld := Vector.replicate 11 0
  requests := []
  response := none

end Sys2Proof.Machine
end

