-- ==== Sys2Proof/Machine/Bits.lean ====
section
/-! DEFINITION. Bits of the stream and values of bits: `take` and `bits_n` (00_scope R15), `strip`, `pack`, `ext` and
`prev2_at` (20_memory R62, R63, R66). -/

namespace Sys2Proof.Machine

/-- The number whose binary digits are the bits, first bit most significant (R15, R60). -/
def bitsVal (bs : List Bool) : Nat := bs.foldl (fun acc b => 2 * acc + b.toNat) 0

/-- `take(S, p, n)` (R15): the n-bit value whose most significant bit is `S[p]`. The spec defines it for `p + n <= LEN`
only, and no command uses it elsewhere (log entry 9). -/
def takeBits (bs : List Bool) (p n : Nat) : BitVec n := BitVec.ofNat n (bitsVal ((bs.drop p).take n))

/-- `bits_n(v)` (R15): the n bits of v, most significant first. -/
def bitsOf (n : Nat) (v : BitVec n) : List Bool := (List.range n).map v.getMsbD

/-- The data bits of one byte (R60, R62): its 8 - pad high bits, bit 7 first. -/
def dataBits (byte : Byte) (pad : BitVec 3) : List Bool := (bitsOf 8 byte).take (8 - pad.toNat)

/-- `strip(SB, usepad)` (R62): the logical bit sequence of a staging buffer. -/
def strip (sb : List SBEntry) (usepad : Bool) : List Bool :=
  sb.flatMap (fun e => dataBits e.byte (if usepad then e.pad else 0))

/-- `pack(S, idx)` (R63): stream bits 8*idx to 8*idx+7, first bit most significant, 0 in place of a bit at or beyond LEN. -/
def pack (bs : List Bool) (idx : Nat) : Byte :=
  BitVec.ofNat 8 (bitsVal ((List.range 8).map (fun j => bs.getD (8 * idx + j) false)))

/-- The stream extended two places to the left (R66): entry k + 2 of this list is `ext(k)`. -/
def extStream (carry : BitVec 2) (bs : List Bool) : List Bool := bitsOf 2 carry ++ bs

/-- `prev2_at(p)` (R66): `ext(p-2) ++ ext(p-1)`, the two bits just before position p. -/
def prev2At (carry : BitVec 2) (bs : List Bool) (p : Nat) : BitVec 2 := takeBits (extStream carry bs) p 2

end Sys2Proof.Machine
end

