-- ==== Sys2Proof/Config.lean ====
section
/-! DEFINITION. What one implementation fixes and the spec leaves open: the capacity CAP_BYTES (00_scope R7). -/

namespace Sys2Proof

/-- The implementation's choice of capacity, with no body: nothing can be proved of its value (R7, I11; log entry 3).
`Machine.capBytes` maps it onto the spec's range. -/
opaque Config.capacityChoice : Nat

/-- The smallest CAP_BYTES the spec allows (R7). -/
def Config.capMin : Nat := 40

/-- The largest CAP_BYTES the spec allows, 2^21 - 1 (R7). -/
def Config.capMax : Nat := 2097151

end Sys2Proof
end

