-- ==== Sys2Proof/Machine/Params.lean ====
section
/-! DEFINITION. The named parameters of 00_scope R7 to R9 that are single numbers: capacity, peek limit, preamble.
The parity relation (R10) stands in ParityEngine.lean, the field map (R11) in FieldMap.lean. -/

namespace Sys2Proof.Machine

/-- CAP_BYTES (R7): some number from 40 to 2^21 - 1, no more is known of it (log entry 3). -/
def capBytes : Nat := Config.capacityChoice % (Config.capMax - Config.capMin + 1) + Config.capMin

/-- The capacity of the stream store in bits (R7, R68). -/
def capBits : Nat := 8 * capBytes

/-- PEEK_MAX (R8): the most bits one BC.PEEK or BC.PUT moves. -/
def peekMax : Nat := 32

/-- PREAMBLE (R9): the spec's default, 10001011, first transmitted bit first (log entry 4). -/
def preamble : BitVec 8 := 0x8B

/-- Bits of a word and of a subframe (R200). -/
def wordBits : Nat := 30

/-- A subframe is ten words of 30 bits (R200). -/
def subframeBits : Nat := 300

end Sys2Proof.Machine
end

