-- ==== Sys2Proof/Machine/Operands.lean ====
section
/-! DEFINITION. The operand forms: register numbers (10_state R21), the ARG layouts of 30_encoding R93, and the operand
values that have no meaning (R95). -/

namespace Sys2Proof.Machine

/-- A frame register (R21, R33 to R35): the ones WRFRM writes. -/
inductive FrameReg where
  | tlm
  | how
  | fld (k : Fin 11)
  deriving DecidableEq, Repr

/-- A readable register (R21). -/
inductive Reg where
  | cfg
  | status
  | pos
  | len
  | sbn
  | consumed
  | vflags
  | frame (f : FrameReg)
  deriving DecidableEq, Repr

/-- The register of a register number (R21); 20 to 31 are reserved. -/
def Reg.ofNumber (reg : BitVec 5) : Option Reg :=
  match reg.toNat with
  | 0 => some .cfg
  | 1 => some .status
  | 2 => some .pos
  | 3 => some .len
  | 4 => some .sbn
  | 5 => some .consumed
  | 6 => some .vflags
  | 7 => some (.frame .tlm)
  | 8 => some (.frame .how)
  | k + 9 => if h : k < 11 then some (.frame (.fld ⟨k, h⟩)) else none

/-- The frame register WRFRM writes by a register number (R21, R95): 7 to 19. -/
def FrameReg.ofNumber (reg : BitVec 5) : Option FrameReg :=
  match Reg.ofNumber reg with
  | some (.frame f) => some f
  | _ => none

/-- THRESH has a meaning (R95, R260). -/
def threshLegal (thresh : BitVec 4) : Bool := decide (1 ≤ thresh.toNat) && decide (thresh.toNat ≤ 10)

/-- The bits BC.PUT appends (R93): ARG[n-1:0], ARG[n-1] first. -/
def putBits (n : Nat) (value : Word) : List Bool := bitsOf n (value.setWidth n)

/-- `prev2` of a PAR command (R93): ARG[1:0]. -/
def parPrev2 (operand : Word) : BitVec 2 := operand.extractLsb' 0 2

/-- `d` of PAR.COMP (R93): ARG[25:2]. -/
def parData (operand : Word) : BitVec 24 := operand.extractLsb' 2 24

/-- `W` of PAR.VRFY (R93): ARG[31:2]. -/
def parWord (operand : Word) : BitVec 30 := operand.extractLsb' 2 30

/-- HOW[21:19], the subframe identifier held in HOW (R34). -/
def sfidOfHow (how : BitVec 22) : BitVec 3 := how.extractLsb' 19 3

end Sys2Proof.Machine
end

