-- ==== Sys2Proof/Machine/Flags.lean ====
section
/-! DEFINITION. Codes and flags: the status codes (60_exceptions R280), the composite registers CFG and STATUS (10_state R23,
R29), the per-word parity flags (R36, 43_subframe_codec R202), and which command is legal in which mode
(40_bit_cursor R120). -/

namespace Sys2Proof.Machine

/-- The 4-bit code of a status (R280). -/
def Status.code : Status → BitVec 4
  | .ok => 0
  | .insufficientData => 1
  | .outOfRange => 2
  | .unsupportedSubframe => 3
  | .parityMismatch => 4
  | .badCommand => 5
  | .wrongMode => 6

/-- STATUS[1:0] (R24). -/
def CMode.code : CMode → BitVec 2
  | .closed => 0
  | .decode => 1
  | .encode => 2
  | .carry => 3

/-- STATUS[3:2] (R27). -/
def Fsm.code : Fsm → BitVec 2
  | .searching => 0
  | .tentativeLock => 1
  | .locked => 2

/-- CFG, register 0 (R23): THRESH ++ PARITY_EN. -/
def State.cfgBits (s : State) : BitVec 5 := s.thresh ++ BitVec.ofBool s.parityEn

/-- STATUS, register 1 (R29, R261): PARREJ_SEEN ++ UNSUP_SEEN ++ PREV2 ++ FRAME_VALID ++ FSM ++ CMODE. -/
def State.statusBits (s : State) : BitVec 9 :=
  BitVec.ofBool s.parrejSeen ++ BitVec.ofBool s.unsupSeen ++ s.prev2 ++ BitVec.ofBool s.frameValid ++ s.fsm.code ++
    s.cmode.code

/-- The validity flag of one word (R36, R202): 0 unchecked, 1 valid, 2 invalid. -/
def validityFlag (parityEn ok : Bool) : BitVec 2 :=
  if parityEn then (if ok then 1 else 2) else 0

/-- `vflags = flag_10 ++ ... ++ flag_1` (R202): the first flag of the list in bits 1:0. -/
def packFlags (flags : List (BitVec 2)) : BitVec 20 :=
  flags.foldr (fun f acc => (acc <<< 2) ||| f.setWidth 20) 0

/-- `fails` (R202): the number of words whose flag is invalid. -/
def countFails (flags : List (BitVec 2)) : Nat := flags.countP (fun f => f == 2)

/-- Legal in every mode once built (R120): RDREG, WRFRM, PAR.COMP, PAR.VRFY, BC.CLOSE. -/
def CMode.any : CMode → Bool
  | .closed => true
  | .decode => true
  | .encode => true
  | .carry => true

/-- Legal while no cursor is open (R120): SB.CLR, SB.PUSH, BC.OPEN, BC.OPENW, BC.OPENC, DEC.RAW. -/
def CMode.noCursor : CMode → Bool
  | .closed => true
  | .decode => false
  | .encode => false
  | .carry => false

/-- Legal on a cursor that can be read at POS (R120): BC.PEEK, BC.ADV, SYNC.SCAN, SF.DEC. -/
def CMode.readable : CMode → Bool
  | .closed => false
  | .decode => true
  | .encode => false
  | .carry => true

/-- Legal on any open cursor (R120): BC.POS, BC.RDB. -/
def CMode.hasCursor : CMode → Bool
  | .closed => false
  | .decode => true
  | .encode => true
  | .carry => true

/-- Legal on an encode cursor (R120): BC.PUT, SF.ENC. -/
def CMode.writable : CMode → Bool
  | .closed => false
  | .decode => false
  | .encode => true
  | .carry => false

/-- Legal on a carried-over cursor (R120): BC.APPEND, BC.DROP, DEC.BYTE. -/
def CMode.carried : CMode → Bool
  | .closed => false
  | .decode => false
  | .encode => false
  | .carry => true

end Sys2Proof.Machine
end

