-- ==== Sys2Proof/Machine/Ops.lean ====
section
/-! DEFINITION. The named operations over the state that the commands share: answering, failing (60_exceptions R290), the mode
check (40_bit_cursor R120), the staging buffer, the cursor and the frame registers, and the command port. -/

namespace Sys2Proof.Machine

/-- Present a response at the command port (R3, R90). -/
def State.answer (s : State) (st : Status) (res : Word) : State := { s with response := some ⟨st, res⟩ }

/-- `return (ST, RES)` (R16): the command ends in state s with that response. -/
def finish (s : State) (st : Status) (res : Word) : Result := .next (s.answer st res)

/-- `return (OK, RES)` (R16). -/
def succeed (s : State) (res : Word) : Result := finish s .ok res

/-- `fail(ST)` (R16, R290): failure entry. The response is `(ST, 0)` and no state is written; nothing is saved, no mode
changes, and nothing is returned from afterwards (R291). -/
def fail (s : State) (st : Status) : Result := finish s st 0

/-- The mode check (R120, R286): BUILT = 1 and CMODE legal, else WrongMode. -/
def whenLegal (s : State) (legal : CMode → Bool) (k : Result) : Result :=
  if s.built && legal s.cmode then k else fail s .wrongMode

/-- A natural number as RES. -/
def resNat (n : Nat) : Word := BitVec.ofNat 32 n

/-- The host's next request and the state in which it is executed (R3), none when the host asks nothing. -/
def State.takeRequest (s : State) : Option (Request × State) :=
  match s.requests with
  | [] => none
  | r :: rest => some (r, { s with requests := rest })

/-- The host's next request is r, before those it had still to make. -/
def State.offer (s : State) (r : Request) : State := { s with requests := r :: s.requests }

/-- The state after a successful INIT (R260, R40 column "after INIT"): all of it is written, none of it read. -/
def State.build (s : State) (parityEn : Bool) (thresh : BitVec 4) : State where
  built := true
  parityEn := parityEn
  thresh := thresh
  cmode := .closed
  sb := []
  stream := []
  pos := 0
  prev2 := 0
  fsm := .searching
  consumed := 0
  unsupSeen := false
  parrejSeen := false
  frameValid := false
  vflags := 0
  tlm := 0
  how := 0
  fld := Vector.replicate 11 0
  requests := s.requests
  response := s.response

/-- `SBN <- 0` (R121). -/
def State.clearStaging (s : State) : State := { s with sb := [] }

/-- `SB[SBN] <- (byte, pad); SBN <- SBN + 1` (R122). -/
def State.pushStaging (s : State) (byte : Byte) (pad : BitVec 3) : State := { s with sb := s.sb ++ [⟨byte, pad⟩] }

/-- A cursor of mode m over the bits, at position 0 (R123, R124, R125). -/
def State.openCursor (s : State) (m : CMode) (bits : List Bool) : State :=
  { s with cmode := m, stream := bits, pos := 0 }

/-- `PREV2 <- v` (R125, R126, R132). -/
def State.setPrev2 (s : State) (v : BitVec 2) : State := { s with prev2 := v }

/-- `carry` of R66: PREV2 in Decode and Carry mode, 00 in Encode mode. The spec does not use it in mode Closed. -/
def State.carryBits (s : State) : BitVec 2 :=
  match s.cmode with
  | .encode => 0
  | .closed => s.prev2
  | .decode => s.prev2
  | .carry => s.prev2

/-- `prev2_at(POS)` of the open cursor (R66). -/
def State.prev2AtPos (s : State) : BitVec 2 := prev2At s.carryBits s.stream s.pos

/-- The end of a cursor (R126): PREV2 kept up to date in Decode and Carry mode, the stream emptied. -/
def State.closeCursor (s : State) : State :=
  (if s.cmode.readable then s.setPrev2 s.prev2AtPos else s).openCursor .closed []

/-- `S <- S ++ bits` (R130, R131, R215). -/
def State.appendBits (s : State) (bits : List Bool) : State := { s with stream := s.stream ++ bits }

/-- The form memory is always in (R68): the staging buffer and the stream store within their capacities. Entries at SBN and
above and bits at LEN and above do not exist (I7), so equal contents are equal data and no further form is needed. -/
def Memory.wf (sb : List SBEntry) (stream : List Bool) : Bool :=
  decide (sb.length ≤ capBytes) && decide (stream.length ≤ capBits)

/-- The bits fit the stream store (R68). -/
def State.fits (s : State) (n : Nat) : Bool := decide (s.stream.length + n ≤ capBits)

/-- `POS <- p`. -/
def State.seek (s : State) (p : Nat) : State := { s with pos := p }

/-- `POS <- LEN` (R130, R215). -/
def State.seekEnd (s : State) : State := s.seek s.stream.length

/-- BC.DROP's effect (R132): the bits before POS are discarded, the two last of them kept in PREV2. -/
def State.dropConsumed (s : State) : State :=
  { s with prev2 := s.prev2AtPos, stream := s.stream.drop s.pos, pos := 0 }

/-- `value(REG)` of a frame register (R261). -/
def State.readFrameReg (s : State) : FrameReg → Word
  | .tlm => s.tlm.setWidth 32
  | .how => s.how.setWidth 32
  | .fld k => s.fld[k]

/-- `value(REG)` (R261): bits above a register's width read as 0. -/
def State.readReg (s : State) : Reg → Word
  | .cfg => s.cfgBits.setWidth 32
  | .status => s.statusBits.setWidth 32
  | .pos => resNat s.pos
  | .len => resNat s.stream.length
  | .sbn => resNat s.sb.length
  | .consumed => resNat s.consumed
  | .vflags => s.vflags.setWidth 32
  | .frame f => s.readFrameReg f

/-- WRFRM's write (R262): the low bits of the value that the register holds, and FRAME_VALID cleared. -/
def State.writeFrameReg (s : State) (f : FrameReg) (value : Word) : State :=
  match f with
  | .tlm => { s with tlm := value.extractLsb' 0 16, frameValid := false }
  | .how => { s with how := value.extractLsb' 0 22, frameValid := false }
  | .fld k => { s with fld := s.fld.set k value, frameValid := false }

end Sys2Proof.Machine
end

