-- ==== Sys2Proof/Machine/BitCursor.lean ====
section
/-! DEFINITION. The 13 commands of the Bit Cursor (40_bit_cursor R121 to R133). The checks of each stand in the order of
60_exceptions R288: operand value, mode, bounds. -/

namespace Sys2Proof.Machine

/-- SB.CLR (R121): empty the staging buffer. -/
def execSbClr (s : State) : Result :=
  whenLegal s CMode.noCursor (succeed s.clearStaging 0)

/-- SB.PUSH byte, pad (R122): append one entry; RES is the new count. -/
def execSbPush (byte : Byte) (pad : BitVec 3) (s : State) : Result :=
  whenLegal s CMode.noCursor
    (if s.sb.length < capBytes then succeed (s.pushStaging byte pad) (resNat (s.sb.length + 1))
     else fail s .outOfRange)

/-- BC.OPEN [usepad] (R123): a Decode cursor over the staging buffer; RES is LEN, PREV2 is not touched. -/
def execBcOpen (usepad : Bool) (s : State) : Result :=
  whenLegal s CMode.noCursor
    (succeed (s.openCursor .decode (strip s.sb usepad)) (resNat (strip s.sb usepad).length))

/-- BC.OPENW (R124): an empty Encode cursor. -/
def execBcOpenW (s : State) : Result :=
  whenLegal s CMode.noCursor (succeed (s.openCursor .encode []) 0)

/-- BC.OPENC (R125): an empty Carry cursor with no history, PREV2 = 00. -/
def execBcOpenC (s : State) : Result :=
  whenLegal s CMode.noCursor (succeed ((s.openCursor .carry []).setPrev2 0) 0)

/-- BC.CLOSE (R126): end the cursor; legal in every mode. -/
def execBcClose (s : State) : Result :=
  whenLegal s CMode.any (succeed s.closeCursor 0)

/-- BC.PEEK n (R127): exactly n bits from POS, without advancing. -/
def execBcPeek (n : BitVec 24) (s : State) : Result :=
  if n.toNat ≤ peekMax then
    whenLegal s CMode.readable
      (if n.toNat ≤ s.stream.length - s.pos then succeed s ((takeBits s.stream s.pos n.toNat).setWidth 32)
       else fail s .insufficientData)
  else fail s .badCommand

/-- BC.ADV n (R128): move POS forward by n, to LEN at most; RES is the new position. -/
def execBcAdv (n : BitVec 24) (s : State) : Result :=
  whenLegal s CMode.readable
    (if s.pos + n.toNat ≤ s.stream.length then succeed (s.seek (s.pos + n.toNat)) (resNat (s.pos + n.toNat))
     else fail s .outOfRange)

/-- BC.POS (R129): RES is POS. -/
def execBcPos (s : State) : Result :=
  whenLegal s CMode.hasCursor (succeed s (resNat s.pos))

/-- BC.PUT n, value (R130): append the n low bits of ARG, most significant first; POS = LEN, RES is POS. -/
def execBcPut (n : BitVec 24) (value : Word) (s : State) : Result :=
  if n.toNat ≤ peekMax then
    whenLegal s CMode.writable
      (if s.fits n.toNat then
        succeed (s.appendBits (putBits n.toNat value)).seekEnd (resNat (s.stream.length + n.toNat))
       else fail s .outOfRange)
  else fail s .badCommand

/-- BC.APPEND byte, pad (R131): append the byte's 8 - pad data bits; POS is unchanged, RES is the new LEN. -/
def execBcAppend (byte : Byte) (pad : BitVec 3) (s : State) : Result :=
  whenLegal s CMode.carried
    (if s.fits (8 - pad.toNat) then
      succeed (s.appendBits (dataBits byte pad)) (resNat (s.stream.length + (8 - pad.toNat)))
     else fail s .outOfRange)

/-- BC.DROP (R132): discard the bits before POS; RES is their number. -/
def execBcDrop (s : State) : Result :=
  whenLegal s CMode.carried (succeed s.dropConsumed (resNat s.pos))

/-- BC.RDB idx (R133): one packed byte of the stream. -/
def execBcRdb (idx : BitVec 24) (s : State) : Result :=
  whenLegal s CMode.hasCursor
    (if 8 * idx.toNat < s.stream.length then succeed s ((pack s.stream idx.toNat).setWidth 32)
     else fail s .outOfRange)

end Sys2Proof.Machine
end

