-- ==== Sys2Proof/Machine/FieldMap.lean ====
section
/-! DEFINITION. The field maps FMAP of subframes 1, 2 and 3 (43_subframe_codec R206 to R210; the spec's default, log
entry 6) and the extraction and placing
of one field (R206). The scale-factor exponents are constants that no command applies (R207). -/

namespace Sys2Proof.Machine

/-- The 24-bit source data words `d_1 .. d_10` of a subframe, by word number. -/
abbrev SourceWords := Nat → BitVec 24

/-- A piece (R206): bits hi:lo of `d_w`. -/
structure Piece where
  word : Nat
  hi : Nat
  lo : Nat
  deriving DecidableEq, Repr

/-- A field map entry (R206): the FLD register, the name, two's complement or not, the pieces most significant first,
the scale-factor exponent, the multiplier noted beside it (1 but for AODO, R207), and the unit. -/
structure FieldEntry where
  reg : Fin 11
  name : String
  signed : Bool
  pieces : List Piece
  exponent : Int
  multiplier : Nat
  unit : String
  deriving DecidableEq, Repr

/-- The width of a piece in bits. -/
def pieceWidth (p : Piece) : Nat := p.hi - p.lo + 1

/-- The sum of the piece widths (R206). -/
def piecesWidth (ps : List Piece) : Nat := (ps.map pieceWidth).sum

/-- The piece's bits of the source data, in the low bits of a word. -/
def cutPiece (d : SourceWords) (p : Piece) : Word := ((d p.word).extractLsb' p.lo (pieceWidth p)).setWidth 32

/-- The concatenation of the pieces (R206), in the low bits of a word; no field is wider than 32 bits. -/
def cutPieces (d : SourceWords) (ps : List Piece) : Word :=
  ps.foldl (fun acc p => (acc <<< pieceWidth p) ||| cutPiece d p) 0

/-- `FLD[k] = sext_32(raw) if signed else zext_32(raw)` (R206). -/
def fieldValue (d : SourceWords) (e : FieldEntry) : Word :=
  let raw := (cutPieces d e.pieces).setWidth (piecesWidth e.pieces)
  if e.signed then raw.signExtend 32 else raw.setWidth 32

/-- What the pieces contribute to `d_w` when a register is encoded (R206): the low bits of the value, the first piece taking
the most significant of them; bits above the field's width are ignored. -/
def placePieces : List Piece → Word → Nat → BitVec 24
  | [], _, _ => 0
  | p :: rest, v, w =>
    (if p.word = w then (((v >>> piecesWidth rest).setWidth (pieceWidth p)).setWidth 24) <<< p.lo else 0) |||
      placePieces rest v w

/-- The physical value a host reads from a field (R207): the register as a signed or unsigned integer, times 2^exp, in the
field's unit. No command forms it. -/
def physicalValue (e : FieldEntry) (v : Word) : ℚ :=
  ((if e.signed then v.toInt else v.toNat : Int) : ℚ) * e.multiplier * (2 : ℚ) ^ e.exponent

/-- The subframe bits a piece stands on, 1 to 300 in stream order (the column of R208 to R210). -/
def pieceSubframeBits (p : Piece) : Nat × Nat := (30 * (p.word - 1) + (24 - p.hi), 30 * (p.word - 1) + (24 - p.lo))

/-- Field map for SFID = 1, Ephemeris1: clock correction and health (R208). -/
def fieldMap1 : List FieldEntry :=
  [⟨0, "WN", false, [⟨3, 23, 14⟩], 0, 1, "weeks"⟩,
   ⟨1, "L2CODE", false, [⟨3, 13, 12⟩], 0, 1, "none"⟩,
   ⟨2, "URA", false, [⟨3, 11, 8⟩], 0, 1, "index"⟩,
   ⟨3, "HEALTH", false, [⟨3, 7, 2⟩], 0, 1, "none"⟩,
   ⟨4, "IODC", false, [⟨3, 1, 0⟩, ⟨8, 23, 16⟩], 0, 1, "none"⟩,
   ⟨5, "L2P", false, [⟨4, 23, 23⟩], 0, 1, "none"⟩,
   ⟨6, "TGD", true, [⟨7, 7, 0⟩], -31, 1, "seconds"⟩,
   ⟨7, "TOC", false, [⟨8, 15, 0⟩], 4, 1, "seconds"⟩,
   ⟨8, "AF2", true, [⟨9, 23, 16⟩], -55, 1, "s/s^2"⟩,
   ⟨9, "AF1", true, [⟨9, 15, 0⟩], -43, 1, "s/s"⟩,
   ⟨10, "AF0", true, [⟨10, 23, 2⟩], -31, 1, "seconds"⟩]

/-- Field map for SFID = 2, Ephemeris2: orbit, first part (R209). AODO counts units of 900 seconds: exponent 0, multiplier 900. -/
def fieldMap2 : List FieldEntry :=
  [⟨0, "IODE", false, [⟨3, 23, 16⟩], 0, 1, "none"⟩,
   ⟨1, "CRS", true, [⟨3, 15, 0⟩], -5, 1, "metres"⟩,
   ⟨2, "DELTA_N", true, [⟨4, 23, 8⟩], -43, 1, "semicircles/s"⟩,
   ⟨3, "M0", true, [⟨4, 7, 0⟩, ⟨5, 23, 0⟩], -31, 1, "semicircles"⟩,
   ⟨4, "CUC", true, [⟨6, 23, 8⟩], -29, 1, "radians"⟩,
   ⟨5, "E", false, [⟨6, 7, 0⟩, ⟨7, 23, 0⟩], -33, 1, "none"⟩,
   ⟨6, "CUS", true, [⟨8, 23, 8⟩], -29, 1, "radians"⟩,
   ⟨7, "SQRTA", false, [⟨8, 7, 0⟩, ⟨9, 23, 0⟩], -19, 1, "metres^(1/2)"⟩,
   ⟨8, "TOE", false, [⟨10, 23, 8⟩], 4, 1, "seconds"⟩,
   ⟨9, "FIT", false, [⟨10, 7, 7⟩], 0, 1, "none"⟩,
   ⟨10, "AODO", false, [⟨10, 6, 2⟩], 0, 900, "seconds"⟩]

/-- Field map for SFID = 3, Ephemeris3: orbit, second part (R210). FLD9 and FLD10 are unused. -/
def fieldMap3 : List FieldEntry :=
  [⟨0, "CIC", true, [⟨3, 23, 8⟩], -29, 1, "radians"⟩,
   ⟨1, "OMEGA0", true, [⟨3, 7, 0⟩, ⟨4, 23, 0⟩], -31, 1, "semicircles"⟩,
   ⟨2, "CIS", true, [⟨5, 23, 8⟩], -29, 1, "radians"⟩,
   ⟨3, "I0", true, [⟨5, 7, 0⟩, ⟨6, 23, 0⟩], -31, 1, "semicircles"⟩,
   ⟨4, "CRC", true, [⟨7, 23, 8⟩], -5, 1, "metres"⟩,
   ⟨5, "OMEGA", true, [⟨7, 7, 0⟩, ⟨8, 23, 0⟩], -31, 1, "semicircles"⟩,
   ⟨6, "OMEGADOT", true, [⟨9, 23, 0⟩], -43, 1, "semicircles/s"⟩,
   ⟨7, "IODE", false, [⟨10, 23, 16⟩], 0, 1, "none"⟩,
   ⟨8, "IDOT", true, [⟨10, 15, 2⟩], -43, 1, "semicircles/s"⟩]

/-- Dispatch on the subframe identifier (R205, R211): the map of 1, 2, 3; none for 0 and 4 to 7, the unsupported ones. -/
def fieldMap (sfid : BitVec 3) : Option (List FieldEntry) :=
  match sfid.toNat with
  | 1 => some fieldMap1
  | 2 => some fieldMap2
  | 3 => some fieldMap3
  | _ => none

/-- FLD register k of a decode (R206): the entry's field, 0 for a register with no entry. -/
def decodeField (m : List FieldEntry) (d : SourceWords) (k : Fin 11) : Word :=
  match m.find? (fun e => e.reg == k) with
  | some e => fieldValue d e
  | none => 0

/-- FLD0 to FLD10 of a decode by a field map (R206). -/
def decodeFields (m : List FieldEntry) (d : SourceWords) : Vector Word 11 :=
  #v[decodeField m d 0, decodeField m d 1, decodeField m d 2, decodeField m d 3, decodeField m d 4, decodeField m d 5,
     decodeField m d 6, decodeField m d 7, decodeField m d 8, decodeField m d 9, decodeField m d 10]

/-- `d_w` of an encode, w = 3 to 10 (R206, R213): every entry of the map placed, every other bit 0. -/
def placeFields (m : List FieldEntry) (fld : Vector Word 11) (w : Nat) : BitVec 24 :=
  m.foldr (fun e acc => placePieces e.pieces fld[e.reg] w ||| acc) 0

end Sys2Proof.Machine
end

