-- ==== Sys2Proof/Machine/ParityEngine.lean ====
section
/-! DEFINITION. The Parity Engine (41_parity_engine): the polarity correction, the parity relation PAR, and the commands
PAR.COMP and PAR.VRFY. -/

namespace Sys2Proof.Machine

/-- `correct(D24, prev2)` (R160): all 24 data bits complemented when D30* = prev2[0] = 1; its own inverse. -/
def correct (data : BitVec 24) (prev2 : BitVec 2) : BitVec 24 :=
  if prev2.getLsbD 0 then ~~~data else data

/-- `xor_reduce(v)` (R13): 1 when v has an odd number of 1 bits. -/
def xorReduce (v : BitVec 24) : Bool := (bitsOf 24 v).foldl xor false

/-- One parity equation of R161: which carried bit enters (1 for D29* = prev2[1], 0 for D30* = prev2[0]) and the mask of
the source data bits. -/
structure ParityRow where
  carried : Nat
  mask : BitVec 24
  deriving DecidableEq, Repr

/-- The six equations of the default PAR (R161), D25 first (log entry 5). -/
def parityRows : List ParityRow :=
  [⟨1, 0xEC7CD2⟩, ⟨0, 0x763E69⟩, ⟨1, 0xBB1F34⟩, ⟨0, 0x5D8F9A⟩, ⟨0, 0xAEC7CD⟩, ⟨1, 0x2DEA27⟩]

/-- `PAR(d, prev2)[5-i] = carried_i ^ xor_reduce(d & mask_i)` (R161). -/
def parityBit (row : ParityRow) (d : BitVec 24) (prev2 : BitVec 2) : Bool :=
  xor (prev2.getLsbD row.carried) (xorReduce (d &&& row.mask))

/-- `PAR(d, prev2)` (R10, R161): D25 in bit 5 down to D30 in bit 0. -/
def parity (d : BitVec 24) (prev2 : BitVec 2) : BitVec 6 :=
  takeBits (parityRows.map (fun row => parityBit row d prev2)) 0 6

/-- `encword(d, prev2)` (R164): the word that carries source data d. -/
def encword (d : BitVec 24) (prev2 : BitVec 2) : BitVec 30 := correct d prev2 ++ parity d prev2

/-- The source data bits of a word as it stands in the stream (R160, R164). -/
def wordData (w : BitVec 30) (prev2 : BitVec 2) : BitVec 24 := correct (w.extractLsb' 6 24) prev2

/-- The `ok` of `checkword(W, prev2)` (R164): all six parity bits match. -/
def wordOk (w : BitVec 30) (prev2 : BitVec 2) : Bool := parity (wordData w prev2) prev2 == w.extractLsb' 0 6

/-- PAR.COMP (R162): the parity of ARG's source data after ARG's carried bits. -/
def execParComp (operand : Word) (s : State) : Result :=
  whenLegal s CMode.any (succeed s ((parity (parData operand) (parPrev2 operand)).setWidth 32))

/-- PAR.VRFY (R163): 1 when the word in ARG verifies, else 0; a failed verification is not a failure of the command. -/
def execParVrfy (operand : Word) (s : State) : Result :=
  whenLegal s CMode.any (succeed s (if wordOk (parWord operand) (parPrev2 operand) then 1 else 0))

end Sys2Proof.Machine
end

