-- ==== Sys2Proof/Machine/SubframeCodec.lean ====
section
/-! DEFINITION. The Subframe Decoder and Encoder (43_subframe_codec): the ten words, the Telemetry and Handover Words,
`decode_subframe`, `frame_words`, `solve_t`, and the commands SF.DEC and SF.ENC. -/

namespace Sys2Proof.Machine

/-- What a subframe decode and a scan read (R211, 42_synchronizer R185 item 5): the bits, the two before them, and the
configuration. -/
structure View where
  parityEn : Bool
  thresh : BitVec 4
  carry : BitVec 2
  stream : List Bool
  deriving DecidableEq, Repr

/-- The view of the open cursor. -/
def State.view (s : State) : View := ⟨s.parityEn, s.thresh, s.carryBits, s.stream⟩

/-- A decoded subframe, before it is accepted (R211). -/
structure Candidate where
  tlm : BitVec 16
  how : BitVec 22
  fld : Vector Word 11
  vflags : BitVec 20
  sfid : BitVec 3
  fails : Nat
  deriving DecidableEq, Repr

/-- Where word w (1 to 10) of the subframe at p starts (R200). -/
def wordStart (p w : Nat) : Nat := p + wordBits * (w - 1)

/-- `W_w` of `words_at(p)` (R201): word w as it stands in the stream. -/
def wordAt (v : View) (p w : Nat) : BitVec 30 := takeBits v.stream (wordStart p w) 30

/-- `pv_w` of `words_at(p)` (R201): the two bits before word w. -/
def carriedAt (v : View) (p w : Nat) : BitVec 2 := prev2At v.carry v.stream (wordStart p w)

/-- `d_w` of `words_at(p)` (R201): the source data of word w. -/
def dataAt (v : View) (p w : Nat) : BitVec 24 := wordData (wordAt v p w) (carriedAt v p w)

/-- `ok_w` of `words_at(p)` (R201). -/
def okAt (v : View) (p w : Nat) : Bool := wordOk (wordAt v p w) (carriedAt v p w)

/-- `flag_1 .. flag_10` of the subframe at p (R202). -/
def flagsAt (v : View) (p : Nat) : List (BitVec 2) :=
  (List.range 10).map (fun j => validityFlag v.parityEn (okAt v p (j + 1)))

/-- `tlm_of(d_1)` (R203): RSV, ISF, MSG. -/
def tlmOf (d1 : BitVec 24) : BitVec 16 := d1.extractLsb' 0 1 ++ d1.extractLsb' 1 1 ++ d1.extractLsb' 2 14

/-- `sfid_of(d_2)` (R204). -/
def sfidOf (d2 : BitVec 24) : BitVec 3 := d2.extractLsb' 2 3

/-- `how_of(d_2)` (R204): SFID, AS, ALERT, TOW. -/
def howOf (d2 : BitVec 24) : BitVec 22 :=
  sfidOf d2 ++ d2.extractLsb' 5 1 ++ d2.extractLsb' 6 1 ++ d2.extractLsb' 7 17

/-- FLD0 to FLD10 of a subframe with the identifier (R205, R211): all 0 for an unsupported one, whose words 3 to 10 are not
decoded. -/
def fieldsOf (sfid : BitVec 3) (d : SourceWords) : Vector Word 11 :=
  match fieldMap sfid with
  | some m => decodeFields m d
  | none => Vector.replicate 11 0

/-- `decode_subframe(p)` (R211); it writes nothing and does not look at the preamble. -/
def decodeSubframe (v : View) (p : Nat) : Candidate where
  tlm := tlmOf (dataAt v p 1)
  how := howOf (dataAt v p 2)
  fld := fieldsOf (sfidOf (dataAt v p 2)) (dataAt v p)
  vflags := packFlags (flagsAt v p)
  sfid := sfidOf (dataAt v p 2)
  fails := countFails (flagsAt v p)

/-- The identifier is 1, 2 or 3 (R205). -/
def supported (sfid : BitVec 3) : Bool := (fieldMap sfid).isSome

/-- The frame registers of a decode, written together with FRAME_VALID (R37, R217). -/
def State.storeFrame (s : State) (c : Candidate) : State :=
  { s with tlm := c.tlm, how := c.how, fld := c.fld, vflags := c.vflags, frameValid := true }

/-- `d_1` of `frame_words()` (R213). -/
def frameWord1 (tlm : BitVec 16) : BitVec 24 :=
  preamble ++ tlm.extractLsb' 0 14 ++ tlm.extractLsb' 14 1 ++ tlm.extractLsb' 15 1

/-- `d_2` of `frame_words()` (R213), its non-information bits 00. -/
def frameWord2 (how : BitVec 22) : BitVec 24 :=
  how.extractLsb' 0 17 ++ how.extractLsb' 17 1 ++ how.extractLsb' 18 1 ++ how.extractLsb' 19 3 ++ 0#2

/-- `d_w` of `frame_words()` (R213), w = 1 to 10; m is the map of HOW.SFID. -/
def frameWord (m : List FieldEntry) (s : State) (w : Nat) : BitVec 24 :=
  if w = 1 then frameWord1 s.tlm else if w = 2 then frameWord2 s.how else placeFields m s.fld w

/-- The t that makes the word end in 00 (R214) is t. -/
def solves (d : BitVec 24) (prev2 : BitVec 2) (t : BitVec 24) : Bool :=
  (parity (d ||| t) prev2).extractLsb' 0 2 == 0

/-- `solve_t(d, prev2)` (R214): the first t of 0, 1, 2, 3 with `PAR(d | t, prev2)[1:0] = 00`, and d itself when there is none. -/
def solveT (d : BitVec 24) (prev2 : BitVec 2) : BitVec 24 :=
  match [0, 1, 2, 3].find? (solves d prev2) with
  | some t => d ||| t
  | none => d

/-- The source data the encoder sends as word w after the bits pv (R214, R215): words 2 and 10 are solved. -/
def sentWord (d : SourceWords) (w : Nat) (pv : BitVec 2) : BitVec 24 :=
  if w = 2 ∨ w = 10 then solveT (d w) pv else d w

/-- The stream after word w is appended (R215); pv is the last two bits written so far. -/
def appendWord (carry : BitVec 2) (d : SourceWords) (bs : List Bool) (w : Nat) : List Bool :=
  let pv := prev2At carry bs bs.length
  bs ++ bitsOf 30 (encword (sentWord d w pv) pv)

/-- The stream after the ten words are appended in order (R215). -/
def appendSubframe (carry : BitVec 2) (d : SourceWords) (bs : List Bool) : List Bool :=
  [1, 2, 3, 4, 5, 6, 7, 8, 9, 10].foldl (appendWord carry d) bs

/-- `S <- ` the encoded stream, `POS <- LEN` (R215). -/
def State.encodeFrame (s : State) (m : List FieldEntry) : State :=
  ({ s with stream := appendSubframe s.carryBits (frameWord m s) s.stream }).seekEnd

/-- SF.DEC (R212): decode the subframe at POS. RES is the number of words whose parity failed; no threshold applies. -/
def execSfDec (s : State) : Result :=
  whenLegal s CMode.readable
    (if subframeBits ≤ s.stream.length - s.pos then
      (if supported (decodeSubframe s.view s.pos).sfid then
        succeed ((s.storeFrame (decodeSubframe s.view s.pos)).seek (s.pos + subframeBits))
          (resNat (decodeSubframe s.view s.pos).fails)
       else fail s .unsupportedSubframe)
     else fail s .insufficientData)

/-- SF.ENC (R215): encode the frame registers as one subframe at the end of the encode cursor; RES is the new position. -/
def execSfEnc (s : State) : Result :=
  whenLegal s CMode.writable
    (if s.fits subframeBits then
      (match fieldMap (sfidOfHow s.how) with
       | some m => succeed (s.encodeFrame m) (resNat (s.stream.length + subframeBits))
       | none => fail s .unsupportedSubframe)
     else fail s .outOfRange)

end Sys2Proof.Machine
end

