-- ==== Sys2Proof/Machine/Synchronizer.lean ====
section
/-! DEFINITION. The Synchronizer (42_synchronizer): the scan loop of R181 with its state machine (R180) and the command
SYNC.SCAN. -/

namespace Sys2Proof.Machine

/-- How a scan ended (R181): the position it reached, the state machine, the two reasons for rejections (R38), and the
accepted frame if there is one. -/
structure ScanEnd where
  pos : Nat
  fsm : Fsm
  unsup : Bool
  parrej : Bool
  frame : Option Candidate
  deriving DecidableEq, Repr

/-- "the Handover Word's subframe identifier is out of the supported range" (R182). -/
def rejectedUnsup (c : Candidate) : Bool := !supported c.sfid

/-- "too many of the ten words fail parity (when verification is enabled)" (R182): at least THRESH of them. -/
def rejectedParity (v : View) (c : Candidate) : Bool := v.parityEn && decide (v.thresh.toNat ≤ c.fails)

/-- The scan loop of R181 from position p, with the reasons seen so far. Every turn ends the scan or adds 1 to the position
(R185 item 1), so LEN - POS + 1 turns are enough; the arm with no turns left is reached by no scan (log entry 10). -/
def scanLoop (v : View) : Nat → Nat → Bool → Bool → ScanEnd
  | 0, p, unsup, parrej => ⟨p, .searching, unsup, parrej, none⟩
  | turns + 1, p, unsup, parrej =>
    if v.stream.length - p < 8 then ⟨p, .searching, unsup, parrej, none⟩
    else if takeBits v.stream p 8 ≠ preamble then scanLoop v turns (p + 1) unsup parrej
    else if v.stream.length - p < subframeBits then ⟨p, .tentativeLock, unsup, parrej, none⟩
    else
      let c := decodeSubframe v p
      let u := rejectedUnsup c
      let r := rejectedParity v c
      if u || r then scanLoop v turns (p + 1) (unsup || u) (parrej || r)
      else ⟨p + subframeBits, .locked, unsup, parrej, some c⟩

/-- The scan of R181 from position p: no reason seen yet, turns enough. -/
def scanFrom (v : View) (p : Nat) : ScanEnd := scanLoop v (v.stream.length - p + 1) p false false

/-- The state writes of a scan that ended so (R181): the frame registers on acceptance only. -/
def State.finishScan (s : State) (e : ScanEnd) : State :=
  let t : State := { s with pos := e.pos, consumed := e.pos, fsm := e.fsm, unsupSeen := e.unsup, parrejSeen := e.parrej,
                            frameValid := false }
  match e.frame with
  | some c => t.storeFrame c
  | none => t

/-- `scan()` (R181, R241, R244): the whole effect of a scan of the open cursor from POS. -/
def State.scan (s : State) : State := s.finishScan (scanFrom s.view s.pos)

/-- The status of a scan (R181, R184, R246): OK with a frame, InsufficientData on exhaustion. -/
def scanStatus (e : ScanEnd) : Status := if e.frame.isSome then .ok else .insufficientData

/-- SYNC.SCAN (R181): search the open cursor from POS; RES is CONSUMED either way. -/
def execSyncScan (s : State) : Result :=
  whenLegal s CMode.readable
    (finish s.scan (scanStatus (scanFrom s.view s.pos)) (resNat s.scan.consumed))

end Sys2Proof.Machine
end

