-- ==== Sys2Proof/Machine/StreamDecoder.lean ====
section
/-! DEFINITION. The Stream Decoder (44_stream_decoder): raw bit stream mode DEC.RAW and byte-with-padding mode DEC.BYTE,
compositions of the operations of BC.OPEN, BC.APPEND, SYNC.SCAN, BC.CLOSE and BC.DROP in one atomic command. -/

namespace Sys2Proof.Machine

/-- The Decode cursor DEC.RAW makes (R241): over the staging buffer, padding counts ignored. -/
def State.openRaw (s : State) : State := s.openCursor .decode (strip s.sb false)

/-- The Carry cursor with the byte's data bits appended (R244). -/
def State.appendByte (s : State) (byte : Byte) (pad : BitVec 3) : State := s.appendBits (dataBits byte pad)

/-- The response of a scan of the open cursor (R246): its status, and the number of bits consumed. -/
def finishStream (scanned : State) (e : ScanEnd) (done : State) : Result :=
  finish done (scanStatus e) (resNat scanned.consumed)

/-- DEC.RAW (R241): open, scan, close. -/
def execDecRaw (s : State) : Result :=
  whenLegal s CMode.noCursor
    (finishStream s.openRaw.scan (scanFrom s.openRaw.view s.openRaw.pos) s.openRaw.scan.closeCursor)

/-- DEC.BYTE byte, pad (R244): append, scan, drop. -/
def execDecByte (byte : Byte) (pad : BitVec 3) (s : State) : Result :=
  whenLegal s CMode.carried
    (if s.fits (8 - pad.toNat) then
      finishStream (s.appendByte byte pad).scan
        (scanFrom (s.appendByte byte pad).view (s.appendByte byte pad).pos)
        (s.appendByte byte pad).scan.dropConsumed
     else fail s .outOfRange)

end Sys2Proof.Machine
end

