-- ==== Sys2Proof/Machine/SystemCommands.lean ====
section
/-! DEFINITION. The system commands INIT, RDREG and WRFRM (45_system R260 to R262). -/

namespace Sys2Proof.Machine

/-- INIT parity, thresh (R260): build an instance, in any mode, built or not; THRESH 0 and 11 to 15 are BadCommand. -/
def execInit (parityEn : Bool) (thresh : BitVec 4) (s : State) : Result :=
  if threshLegal thresh then succeed (s.build parityEn thresh) 0 else fail s .badCommand

/-- RDREG r (R261): read a register, with no side effect; REG 20 to 31 are BadCommand. -/
def execRdreg (reg : BitVec 5) (s : State) : Result :=
  match Reg.ofNumber reg with
  | some r => whenLegal s CMode.any (succeed s (s.readReg r))
  | none => fail s .badCommand

/-- WRFRM r, value (R262): write a frame register and clear FRAME_VALID; REG 0 to 6 and 20 to 31 are BadCommand. -/
def execWrfrm (reg : BitVec 5) (value : Word) (s : State) : Result :=
  match FrameReg.ofNumber reg with
  | some f => whenLegal s CMode.any (succeed (s.writeFrameReg f value) 0)
  | none => fail s .badCommand

end Sys2Proof.Machine
end

