-- ==== Sys2Proof/Machine/Dispatch.lean ====
section
/-! DEFINITION. One arm per command: its meaning (00_scope R3, 30_encoding R92). -/

namespace Sys2Proof.Machine

def exec (i : Instr) (s : State) : Host.Outcome State Fault Refusal :=
  match i with
  -- 45_system
  | .init p t => Sys2Proof.Machine.execInit p t s
  | .rdreg reg => Sys2Proof.Machine.execRdreg reg s
  | .wrfrm reg v => Sys2Proof.Machine.execWrfrm reg v s
  -- 40_bit_cursor
  | .sbClr => Sys2Proof.Machine.execSbClr s
  | .sbPush b p => Sys2Proof.Machine.execSbPush b p s
  | .bcOpen u => Sys2Proof.Machine.execBcOpen u s
  | .bcOpenW => Sys2Proof.Machine.execBcOpenW s
  | .bcOpenC => Sys2Proof.Machine.execBcOpenC s
  | .bcClose => Sys2Proof.Machine.execBcClose s
  | .bcPeek n => Sys2Proof.Machine.execBcPeek n s
  | .bcAdv n => Sys2Proof.Machine.execBcAdv n s
  | .bcPos => Sys2Proof.Machine.execBcPos s
  | .bcPut n v => Sys2Proof.Machine.execBcPut n v s
  | .bcAppend b p => Sys2Proof.Machine.execBcAppend b p s
  | .bcDrop => Sys2Proof.Machine.execBcDrop s
  | .bcRdb idx => Sys2Proof.Machine.execBcRdb idx s
  -- 41_parity_engine
  | .parComp v => Sys2Proof.Machine.execParComp v s
  | .parVrfy v => Sys2Proof.Machine.execParVrfy v s
  -- 42_synchronizer
  | .syncScan => Sys2Proof.Machine.execSyncScan s
  -- 43_subframe_codec
  | .sfDec => Sys2Proof.Machine.execSfDec s
  | .sfEnc => Sys2Proof.Machine.execSfEnc s
  -- 44_stream_decoder
  | .decRaw => Sys2Proof.Machine.execDecRaw s
  | .decByte b p => Sys2Proof.Machine.execDecByte b p s

end Sys2Proof.Machine
end

