-- ==== Sys2Proof/Machine/Step.lean ====
section
/-! DEFINITION. One step of the machine: the host's next request, decoded and executed (00_scope R3). The core fetches no
instruction (R2, 20_memory R72); the request port stands where a fetch would. -/

namespace Sys2Proof.Machine

/-- One command (R3). With no request the core is idle and keeps all state (60_exceptions section 8; log entry 1); an
illegal CMD answers BadCommand and changes no state (30_encoding R95). -/
def step (s : State) : Host.Outcome State Fault Refusal :=
  match s.takeRequest with
  | none => .next s
  | some (r, t) =>
    match decode r with
    | .ok i => exec i t
    | .error _ => fail t .badCommand

/-- s with an opcode-table word as the host's next request. -/
def State.withFetchWord (s : State) (nbits w : Nat) : State := s.offer (tableRequest nbits w)

end Sys2Proof.Machine
end

