-- ==== Sys2Proof/Machine/HostSequences.lean ====
section
/-! DEFINITION. What the host does with the command set: the mnemonics and assembler syntax of 30_encoding R97, the
pseudo-commands of R98, and issuing a sequence of commands. The core knows nothing of these. -/

namespace Sys2Proof.Machine

/-- The register names of the assembler syntax (R97, 10_state R21). -/
def registerName : Reg → String
  | .cfg => "CFG"
  | .status => "STATUS"
  | .pos => "POS"
  | .len => "LEN"
  | .sbn => "SBN"
  | .consumed => "CONSUMED"
  | .vflags => "VFLAGS"
  | .frame .tlm => "TLM"
  | .frame .how => "HOW"
  | .frame (.fld k) => "FLD" ++ toString k.val

/-- `<reg name or number>` (R97): the name of a register that exists, else the number. -/
def registerText (reg : BitVec 5) : String :=
  match Reg.ofNumber reg with
  | some r => registerName r
  | none => toString reg.toNat

/-- `<byte> [, pad=<0..7>]` (R97); pad defaults to 0. -/
def byteText (byte : Byte) (pad : BitVec 3) : String :=
  toString byte.toNat ++ (if pad = 0 then "" else ", pad=" ++ toString pad.toNat)

/-- A command as R97 writes it, numbers in decimal. -/
def assembly : Instr → String
  | .init p t => "INIT parity=" ++ (if p then "1" else "0") ++ ", thresh=" ++ toString t.toNat
  | .rdreg reg => "RDREG " ++ registerText reg
  | .wrfrm reg v => "WRFRM " ++ registerText reg ++ ", " ++ toString v.toNat
  | .sbClr => "SB.CLR"
  | .sbPush b p => "SB.PUSH " ++ byteText b p
  | .bcOpen u => if u then "BC.OPEN usepad" else "BC.OPEN"
  | .bcOpenW => "BC.OPENW"
  | .bcOpenC => "BC.OPENC"
  | .bcClose => "BC.CLOSE"
  | .bcPeek n => "BC.PEEK " ++ toString n.toNat
  | .bcAdv n => "BC.ADV " ++ toString n.toNat
  | .bcPos => "BC.POS"
  | .bcPut n v => "BC.PUT " ++ toString n.toNat ++ ", " ++ toString v.toNat
  | .bcAppend b p => "BC.APPEND " ++ byteText b p
  | .bcDrop => "BC.DROP"
  | .bcRdb idx => "BC.RDB " ++ toString idx.toNat
  | .parComp v => "PAR.COMP d=" ++ toString (parData v).toNat ++ ", prev=" ++ toString (parPrev2 v).toNat
  | .parVrfy v => "PAR.VRFY w=" ++ toString (parWord v).toNat ++ ", prev=" ++ toString (parPrev2 v).toNat
  | .syncScan => "SYNC.SCAN"
  | .sfDec => "SF.DEC"
  | .sfEnc => "SF.ENC"
  | .decRaw => "DEC.RAW"
  | .decByte b p => "DEC.BYTE " ++ byteText b p

/-- The pseudo-commands (R98). BC.DUMP carries the LEN its first read answers. -/
inductive Pseudo where
  | bcRead (n : BitVec 24)
  | bcSkip (n : BitVec 24)
  | bcRemain
  | sbLoad (bytes : List Byte)
  | sbLoadP (entries : List SBEntry)
  | bcDump (len : Nat)
  | rdframe
  deriving DecidableEq, Repr

/-- The expansion of a pseudo-command (R98). -/
def expand : Pseudo → List Instr
  | .bcRead n => [.bcPeek n, .bcAdv n]
  | .bcSkip n => [.bcAdv n]
  | .bcRemain => [.rdreg 3, .rdreg 2]
  | .sbLoad bytes => .sbClr :: bytes.map (fun b => .sbPush b 0)
  | .sbLoadP entries => .sbClr :: entries.map (fun e => .sbPush e.byte e.pad)
  | .bcDump len => .rdreg 3 :: (List.range ((len + 7) / 8)).map (fun i => .bcRdb (BitVec.ofNat 24 i))
  | .rdframe => [.rdreg 1, .rdreg 6] ++ (List.range 13).map (fun k => .rdreg (BitVec.ofNat 5 (k + 7)))

/-- The host issues commands in order and stops at the first that fails (R98): the responses and the last state. -/
def issue : List Instr → State → List Response × State
  | [], s => ([], s)
  | i :: rest, s =>
    match exec i s with
    | .next t =>
      match t.response with
      | some r => if r.st = .ok then (r :: (issue rest t).1, (issue rest t).2) else ([r], t)
      | none => ([], t)
    | .fault _ => ([], s)
    | .refused _ => ([], s)

end Sys2Proof.Machine
end

