-- ==== Sys2Proof/Safety.lean ====
section
/-! DEFINITION. What counts as a sound state and a safe step, in the terms the statements use: the invariants of 10_state R39,
a failing command (60_exceptions R290), and streams of commands in the two decoding modes (44_stream_decoder R245). -/

namespace Sys2Proof.Machine

/-- The parity flag of word w, w = 1 to 10 (R36). -/
def flagOf (vflags : BitVec 20) (w : Nat) : BitVec 2 := vflags.extractLsb' (2 * (w - 1)) 2

/-- The invariants of R39 that speak of one state, for a built instance. -/
structure State.Sound (s : State) : Prop where
  /-- R39 item 1 -/
  pos_le : s.pos ≤ s.stream.length
  /-- R39 item 1, R68 -/
  len_le : s.stream.length ≤ capBits
  /-- R39 item 2, R68 -/
  sbn_le : s.sb.length ≤ capBytes
  /-- R39 item 3 -/
  closed : s.cmode = .closed → s.stream = [] ∧ s.pos = 0
  /-- R39 item 4 -/
  encode_end : s.cmode = .encode → s.pos = s.stream.length
  /-- R39 item 5 -/
  thresh_range : 1 ≤ s.thresh.toNat ∧ s.thresh.toNat ≤ 10
  /-- R39 item 6 -/
  flags_legal : ∀ w, 1 ≤ w → w ≤ 10 → flagOf s.vflags w ≠ 3
  /-- R39 item 7 -/
  unchecked : s.parityEn = false → s.vflags = 0
  /-- R39 item 8 -/
  frame_supported : s.frameValid = true → 1 ≤ (sfidOfHow s.how).toNat ∧ (sfidOfHow s.how).toNat ≤ 3
  /-- R32: a value that was at most LEN when it was written -/
  consumed_le : s.consumed ≤ capBits

/-- The invariant of the machine: R39 holds "after every command of every run that began with INIT", so once built. -/
def State.Inv (s : State) : Prop := s.built = true → s.Sound

/-- The command answers the status with RES = 0 and writes no state (R290). -/
def FailsWith (i : Instr) (s : State) (st : Status) : Prop := exec i s = .next (s.answer st 0)

/-- The command is done: it leaves state t and answers `(st, res)` (R3). -/
def Answers (i : Instr) (s t : State) (st : Status) (res : Word) : Prop := exec i s = .next (t.answer st res)

/-- The decoded frame a host reads (R37): TLM, HOW, FLD0 to FLD10, VFLAGS. -/
structure Frame where
  tlm : BitVec 16
  how : BitVec 22
  fld : Vector Word 11
  vflags : BitVec 20
  deriving DecidableEq, Repr

/-- The frame registers of a state. -/
def State.frame (s : State) : Frame := ⟨s.tlm, s.how, s.fld, s.vflags⟩

/-- Byte-with-padding mode over a list of bytes (R245, machine A): the accepted frames with the position in the logical
stream just after each, and the position up to which everything is consumed. `base` bits were consumed before. -/
def feedBytes : List SBEntry → State → Nat → List (Nat × Frame) × Nat
  | [], _, base => ([], base)
  | e :: rest, s, base =>
    match exec (.decByte e.byte e.pad) s with
    | .next t =>
      let later := feedBytes rest t (base + t.consumed)
      (if t.frameValid then ((base + t.consumed, t.frame) :: later.1, later.2) else later)
    | .fault _ => ([], base)
    | .refused _ => ([], base)

/-- One raw-mode call over a buffer that holds the bits (R241): a Decode cursor over them, a scan, the close. -/
def State.rawCall (s : State) (bits : List Bool) : State := (s.openCursor .decode bits).scan.closeCursor

/-- Raw mode over the bits with exact discards (R245, machine B), until a call finds no frame or `turns` calls are made. -/
def rawCalls : Nat → List Bool → State → Nat → List (Nat × Frame) × Nat
  | 0, _, _, base => ([], base)
  | turns + 1, bits, s, base =>
    let t := s.rawCall (bits.drop base)
    if t.frameValid then
      let later := rawCalls turns bits t (base + t.consumed)
      ((base + t.consumed, t.frame) :: later.1, later.2)
    else ([], base + t.consumed)

end Sys2Proof.Machine
end

