-- ==== Sys2Proof/Certificates/Slice0/Obligations.lean ====
section
/-! DEFINITION. The statements for the provers, each from the numbered rules of spec/. `FailsWith i s st` says that command i in
state s answers `(st, 0)` and writes nothing (60_exceptions R290). A statement that takes an operand or mode hypothesis has its
witness in Sys2Proof/Tests/Slice0.lean, under the name test_witness_<statement>. -/

open Sys2Proof Sys2Proof.Machine

/-! ## Encoding and decoding -/

/-- Decode and encode agree on every command, with every operand at every value its field admits (R91, R92, R99). -/
def Obligations.DecodeOfEncodeIsTheCommand : Prop :=
  ∀ i : Instr, decode (encode i) = .ok i

/-- Each legal request has one meaning (R90, R92): a request that decodes to i has the CMD of i, and its ARG where i uses
ARG. -/
def Obligations.EncodeOfDecodeIsTheRequest : Prop :=
  ∀ (r : Request) (i : Instr), decode r = .ok i →
    (encode i).cmd = r.cmd ∧ (i.usesArg = true → (encode i).arg = r.arg)

/-- R99: `decode` answers the row with `CMD & mask = match`, with its fields cut by R91, and illegal when there is none;
at most one row matches, so the order of the loop does not matter; no state and no ARG enters the choice. -/
def Obligations.DecodePicksTheOnlyMatchingRow : Prop :=
  (opcodeRows.length = 23) ∧
  (opcodeRows.Pairwise (fun a b => ∀ cmd : Word, ¬ (cmd &&& a.mask = a.matchBits ∧ cmd &&& b.mask = b.matchBits))) ∧
  (∀ (r : Request) (row : Row), row ∈ opcodeRows → r.cmd &&& row.mask = row.matchBits → decode r = .ok (row.build r)) ∧
  (∀ r : Request, (∀ row ∈ opcodeRows, r.cmd &&& row.mask ≠ row.matchBits) → ∃ e, decode r = .error e)

/-- R95: a CMD decodes exactly when its opcode is in the table and its zero field is zero; every other CMD answers BadCommand
and changes no state; and so does every operand value with no meaning, in every state. -/
def Obligations.IllegalEncodingsAnswerBadCommand : Prop :=
  (∀ r : Request, (∃ i, decode r = .ok i) ↔
    ((r.cmd.extractLsb' 24 8 ∈ ([0x24, 0x25, 0x27, 0x2A] : List (BitVec 8))) ∨
     (r.cmd.extractLsb' 24 8 ∈ ([0x11, 0x28, 0x49] : List (BitVec 8)) ∧ r.cmd.extractLsb' 11 13 = 0) ∨
     (r.cmd.extractLsb' 24 8 ∈ ([0x01, 0x02, 0x03] : List (BitVec 8)) ∧ r.cmd.extractLsb' 5 19 = 0) ∨
     (r.cmd.extractLsb' 24 8 = 0x20 ∧ r.cmd.extractLsb' 1 23 = 0) ∨
     (r.cmd.extractLsb' 24 8 ∈ ([0x10, 0x21, 0x22, 0x23, 0x26, 0x29, 0x30, 0x31, 0x40, 0x41, 0x42, 0x48] : List (BitVec 8)) ∧
       r.cmd.extractLsb' 0 24 = 0))) ∧
  (∀ (s : State) (r : Request) (rest : List Request), s.requests = r :: rest → (¬ ∃ i, decode r = .ok i) →
    step s = .next { s with requests := rest, response := some ⟨.badCommand, 0⟩ }) ∧
  (∀ (s : State) (p : Bool) (t : BitVec 4), (t.toNat = 0 ∨ 11 ≤ t.toNat) → FailsWith (.init p t) s .badCommand) ∧
  (∀ (s : State) (reg : BitVec 5), 20 ≤ reg.toNat → FailsWith (.rdreg reg) s .badCommand) ∧
  (∀ (s : State) (reg : BitVec 5) (v : Word), (reg.toNat ≤ 6 ∨ 20 ≤ reg.toNat) → FailsWith (.wrfrm reg v) s .badCommand) ∧
  (∀ (s : State) (n : BitVec 24), 33 ≤ n.toNat → FailsWith (.bcPeek n) s .badCommand) ∧
  (∀ (s : State) (n : BitVec 24) (v : Word), 33 ≤ n.toNat → FailsWith (.bcPut n v) s .badCommand)

/-- The worked encodings of 30_encoding section 6, all 18 rows: each CMD decodes to the command it stands for; BC.PEEK 33 decodes
and then answers BadCommand (R95); the three illegal CMDs do not decode, and a step answers them BadCommand. That the decoder
tells an opcode in no row from a zero field that is set, by two names, is the model's own choice (log entry 18). -/
def Obligations.WorkedEncodingsDecode : Prop :=
  decode ⟨0x01000005, 0⟩ = .ok (.init true 2) ∧ decode ⟨0x01000002, 0⟩ = .ok (.init false 1) ∧
  decode ⟨0x02000001, 0⟩ = .ok (.rdreg 1) ∧ decode ⟨0x03000007, 0x1234⟩ = .ok (.wrfrm 7 0x1234) ∧
  decode ⟨0x110000A5, 0⟩ = .ok (.sbPush 0xA5 0) ∧ decode ⟨0x110001A5, 0⟩ = .ok (.sbPush 0xA5 1) ∧
  decode ⟨0x20000000, 0⟩ = .ok (.bcOpen false) ∧ decode ⟨0x20000001, 0⟩ = .ok (.bcOpen true) ∧
  decode ⟨0x24000008, 0⟩ = .ok (.bcPeek 8) ∧
  (decode ⟨0x24000021, 0⟩ = .ok (.bcPeek 33) ∧ ∀ s : State, FailsWith (.bcPeek 33) s .badCommand) ∧
  decode ⟨0x2500012C, 0⟩ = .ok (.bcAdv 300) ∧ decode ⟨0x2700001E, 0x22D23434⟩ = .ok (.bcPut 30 0x22D23434) ∧
  decode ⟨0x2A000025, 0⟩ = .ok (.bcRdb 37) ∧ decode ⟨0x30000000, 0x022D2340⟩ = .ok (.parComp 0x022D2340) ∧
  decode ⟨0x4900018B, 0⟩ = .ok (.decByte 0x8B 1) ∧
  decode ⟨0x00000000, 0⟩ = .error .unknownOpcode ∧ decode ⟨0x26000001, 0⟩ = .error .nonzeroZeroField ∧
  decode ⟨0x11000800, 0⟩ = .error .nonzeroZeroField ∧
  ∀ s : State, step (s.offer ⟨0x00000000, 0⟩) = .next (s.answer .badCommand 0) ∧
    step (s.offer ⟨0x26000001, 0⟩) = .next (s.answer .badCommand 0) ∧
    step (s.offer ⟨0x11000800, 0⟩) = .next (s.answer .badCommand 0)

/-! ## The step -/

/-- A step runs the decoded command on the state without the request (R3); with no request the core is idle and keeps all
state (the model's reading of 60_exceptions section 8, log entry 1). -/
def Obligations.StepRunsTheDecodedCommand : Prop :=
  (∀ (s : State) (r : Request) (rest : List Request) (i : Instr), s.requests = r :: rest → decode r = .ok i →
    step s = exec i { s with requests := rest }) ∧
  (∀ s : State, s.requests = [] → step s = .next s)

/-- R290 with R284 and R293: `exec` is total, in every state, reached or not: each command ends in a next state with a response
and leaves the pending requests alone. A status other than OK comes with RES = 0 and no state written, except the exhaustion of
SYNC.SCAN, DEC.RAW and DEC.BYTE, the only InsufficientData of those three; ParityMismatch is never answered. -/
def Obligations.FailingCommandsWriteNothing : Prop :=
  ∀ (i : Instr) (s : State), ∃ (t : State) (st : Status) (res : Word),
    exec i s = .next t ∧ t.response = some ⟨st, res⟩ ∧ t.requests = s.requests ∧ st ≠ .parityMismatch ∧
      (st = .ok ∨ (t = s.answer st 0 ∧ res = 0 ∧
          ¬ (st = .insufficientData ∧ (i = .syncScan ∨ i = .decRaw ∨ ∃ b p, i = .decByte b p))) ∨
        (st = .insufficientData ∧ res = BitVec.ofNat 32 t.consumed ∧ t.frameValid = false ∧
          (i = .syncScan ∨ i = .decRaw ∨ ∃ b p, i = .decByte b p)))

/-- R287: the statuses other than OK, BadCommand and WrongMode that each command can answer; INIT never answers WrongMode,
and BadCommand is answered only for an operand value of R95. -/
def Obligations.EachCommandAnswersOnlyItsStatuses : Prop :=
  ∀ (i : Instr) (s t : State) (st : Status) (res : Word), exec i s = .next t → t.response = some ⟨st, res⟩ →
    (st = .badCommand → i.wf = false) ∧
    (st = .wrongMode → ∀ p th, i ≠ .init p th) ∧
    (st = .insufficientData → (∃ n, i = .bcPeek n) ∨ i = .syncScan ∨ i = .sfDec ∨ i = .decRaw ∨ ∃ b p, i = .decByte b p) ∧
    (st = .outOfRange → (∃ b p, i = .sbPush b p) ∨ (∃ n, i = .bcAdv n) ∨ (∃ n v, i = .bcPut n v) ∨
      (∃ b p, i = .bcAppend b p) ∨ (∃ n, i = .bcRdb n) ∨ i = .sfEnc ∨ ∃ b p, i = .decByte b p) ∧
    (st = .unsupportedSubframe → i = .sfDec ∨ i = .sfEnc) ∧
    st ≠ .parityMismatch

/-- R120: the mode check of the whole command set. A well-formed command fails with WrongMode and changes nothing exactly
where the table says so, and answers another status everywhere else. -/
def Obligations.ModeMatrixIsRespected : Prop :=
  ∀ (i : Instr) (s : State), i.wf = true →
    let passes : Bool := match i with
      | .init _ _ => true
      | .rdreg _ | .wrfrm _ _ | .parComp _ | .parVrfy _ | .bcClose => s.built
      | .sbClr | .sbPush _ _ | .bcOpen _ | .bcOpenW | .bcOpenC | .decRaw => s.built && decide (s.cmode = .closed)
      | .bcPeek _ | .bcAdv _ | .syncScan | .sfDec => s.built && decide (s.cmode = .decode ∨ s.cmode = .carry)
      | .bcPos | .bcRdb _ => s.built && decide (s.cmode ≠ .closed)
      | .bcPut _ _ | .sfEnc => s.built && decide (s.cmode = .encode)
      | .bcAppend _ _ | .bcDrop | .decByte _ _ => s.built && decide (s.cmode = .carry)
    (passes = false → FailsWith i s .wrongMode) ∧
    (passes = true → ∃ (t : State) (r : Response), exec i s = .next t ∧ t.response = some r ∧ r.st ≠ .wrongMode)

/-- R310: while BUILT = 0 nothing unspecified is observable. Of two unbuilt states with the same pending requests, whatever else
they hold: an INIT with THRESH 1 to 10 leaves the same state from both; every other command changes neither, and answers
BadCommand from both when its operand value has no meaning, WrongMode from both otherwise. -/
def Obligations.UnbuiltStateIsUnobservable : Prop :=
  ∀ (i : Instr) (s u : State), s.built = false → u.built = false → s.requests = u.requests →
    (∀ p th, i = .init p th → 1 ≤ th.toNat → th.toNat ≤ 10 → ∃ t : State, exec i s = .next t ∧ exec i u = .next t) ∧
    ((∀ p th, i = .init p th → th.toNat = 0 ∨ 11 ≤ th.toNat) →
      let st : Status := if i.wf then .wrongMode else .badCommand
      exec i s = .next (s.answer st 0) ∧ exec i u = .next (u.answer st 0))

/-- BUILT is never cleared (R22), and no command but INIT writes the configuration (R23, R263). -/
def Obligations.ConfigurationIsImmutable : Prop :=
  ∀ (i : Instr) (s : State), ∃ t, exec i s = .next t ∧ (s.built = true → t.built = true) ∧
    ((∀ p th, i ≠ .init p th) → t.built = s.built ∧ t.parityEn = s.parityEn ∧ t.thresh = s.thresh)

/-- Who writes what, INIT apart, which writes all of it: the staging buffer (R30), FSM and CONSUMED (R27, R32), UNSUP_SEEN and
PARREJ_SEEN (R38), PREV2 (R28), VFLAGS (R36), TLM, HOW and FLD (R21), FRAME_VALID (R37), the stream (R31), POS (R25), CMODE (R24)
and the configuration (R22, R23) change only by the commands their rules name; POS never decreases except to 0 (R25). -/
def Obligations.EachRegisterIsWrittenByItsCommandsOnly : Prop :=
  ∀ (i : Instr) (s : State), (∀ p th, i ≠ .init p th) → ∃ t, exec i s = .next t ∧
    (t.sb = s.sb ∨ i = .sbClr ∨ ∃ b p, i = .sbPush b p) ∧
    ((t.fsm = s.fsm ∧ t.consumed = s.consumed ∧ t.unsupSeen = s.unsupSeen ∧ t.parrejSeen = s.parrejSeen) ∨
      i = .syncScan ∨ i = .decRaw ∨ ∃ b p, i = .decByte b p) ∧
    (t.prev2 = s.prev2 ∨ i = .bcOpenC ∨ i = .bcClose ∨ i = .bcDrop ∨ i = .decRaw ∨ ∃ b p, i = .decByte b p) ∧
    (t.vflags = s.vflags ∨ i = .sfDec ∨ i = .syncScan ∨ i = .decRaw ∨ ∃ b p, i = .decByte b p) ∧
    ((t.tlm = s.tlm ∧ t.how = s.how ∧ t.fld = s.fld ∧ t.frameValid = s.frameValid) ∨
      (∃ r v, i = .wrfrm r v) ∨ i = .sfDec ∨ i = .syncScan ∨ i = .decRaw ∨ ∃ b p, i = .decByte b p) ∧
    (t.stream = s.stream ∨ (∃ u, i = .bcOpen u) ∨ i = .bcOpenW ∨ i = .bcOpenC ∨ i = .bcClose ∨ (∃ n v, i = .bcPut n v) ∨
      (∃ b p, i = .bcAppend b p) ∨ i = .bcDrop ∨ i = .sfEnc ∨ i = .decRaw ∨ ∃ b p, i = .decByte b p) ∧
    (t.pos = s.pos ∨ (∃ u, i = .bcOpen u) ∨ i = .bcOpenW ∨ i = .bcOpenC ∨ i = .bcClose ∨ (∃ n, i = .bcAdv n) ∨
      (∃ n v, i = .bcPut n v) ∨ i = .bcDrop ∨ i = .sfDec ∨ i = .sfEnc ∨ i = .syncScan ∨ i = .decRaw ∨
      ∃ b p, i = .decByte b p) ∧
    (s.pos ≤ s.stream.length → s.pos ≤ t.pos ∨ t.pos = 0) ∧
    (t.cmode = s.cmode ∨ (∃ u, i = .bcOpen u) ∨ i = .bcOpenW ∨ i = .bcOpenC ∨ i = .bcClose) ∧
    (t.built = s.built ∧ t.parityEn = s.parityEn ∧ t.thresh = s.thresh)

/-! ## Invariants -/

/-- Every step keeps the invariants of R39 that speak of one state (all but the second half of item 8). -/
def Obligations.StepKeepsTheStateSound : Prop :=
  ∀ s t : State, s.Inv → step s = .next t → t.Inv

/-- After power-on BUILT = 0 (R310), so the invariant of a built instance holds of it. The rest is the model's choice: the values
of everything else (log entry 2), by which even the unbuilt state satisfies R39 and its memory is in its form, and that no
request is pending (log entries 1 and 17). -/
def Obligations.ResetIsUnbuiltAndSound : Prop :=
  State.reset.built = false ∧ State.reset.Inv ∧ State.reset.Sound ∧ State.reset.requests = [] ∧
    Memory.wf State.reset.sb State.reset.stream = true

/-- CAP_BYTES lies within the bounds of R7, so every position of a sound state is below 2^24 (R39 item 1). -/
def Obligations.CapacityIsWithinItsBounds : Prop :=
  40 ≤ capBytes ∧ capBytes ≤ 2 ^ 21 - 1 ∧ ∀ s : State, s.Sound → s.pos < 2 ^ 24 ∧ s.stream.length < 2 ^ 24 ∧ s.consumed < 2 ^ 24

/-! ## System commands -/

/-- INIT (R260, R311): every field of the state after it is given, whatever the state before; THRESH 0 and 11 to 15 write
nothing. -/
def Obligations.InitBuildsAFreshInstance : Prop :=
  ∀ (p : Bool) (t : BitVec 4) (s : State) (a : Word),
    decode ⟨0x01#8 ++ (0#19 ++ t ++ BitVec.ofBool p), a⟩ = .ok (.init p t) ∧
    (1 ≤ t.toNat → t.toNat ≤ 10 → exec (.init p t) s = .next
      { built := true, parityEn := p, thresh := t, cmode := .closed, sb := [], stream := [], pos := 0, prev2 := 0,
        fsm := .searching, consumed := 0, unsupSeen := false, parrejSeen := false, frameValid := false, vflags := 0,
        tlm := 0, how := 0, fld := Vector.replicate 11 0, requests := s.requests, response := some ⟨.ok, 0⟩ }) ∧
    ((t.toNat = 0 ∨ 11 ≤ t.toNat) → FailsWith (.init p t) s .badCommand)

/-- RDREG (R261): every register's value, with no side effect; reserved numbers are BadCommand, an unbuilt instance WrongMode.
STATUS carries the mode by the table of R24 and the state machine by that of R27. -/
def Obligations.RdregReadsEveryRegister : Prop :=
  ∀ (reg : BitVec 5) (s : State) (a : Word),
    decode ⟨0x02#8 ++ (0#19 ++ reg), a⟩ = .ok (.rdreg reg) ∧
    (20 ≤ reg.toNat → FailsWith (.rdreg reg) s .badCommand) ∧
    (reg.toNat ≤ 19 → s.built = false → FailsWith (.rdreg reg) s .wrongMode) ∧
    (s.built = true →
      (reg.toNat = 0 → Answers (.rdreg reg) s s .ok ((s.thresh ++ BitVec.ofBool s.parityEn).setWidth 32)) ∧
      (reg.toNat = 1 → Answers (.rdreg reg) s s .ok
        ((BitVec.ofBool s.parrejSeen ++ BitVec.ofBool s.unsupSeen ++ s.prev2 ++ BitVec.ofBool s.frameValid ++
          (match s.fsm with | .searching => 0#2 | .tentativeLock => 1#2 | .locked => 2#2) ++
          (match s.cmode with | .closed => 0#2 | .decode => 1#2 | .encode => 2#2 | .carry => 3#2)).setWidth 32)) ∧
      (reg.toNat = 2 → Answers (.rdreg reg) s s .ok (BitVec.ofNat 32 s.pos)) ∧
      (reg.toNat = 3 → Answers (.rdreg reg) s s .ok (BitVec.ofNat 32 s.stream.length)) ∧
      (reg.toNat = 4 → Answers (.rdreg reg) s s .ok (BitVec.ofNat 32 s.sb.length)) ∧
      (reg.toNat = 5 → Answers (.rdreg reg) s s .ok (BitVec.ofNat 32 s.consumed)) ∧
      (reg.toNat = 6 → Answers (.rdreg reg) s s .ok (s.vflags.setWidth 32)) ∧
      (reg.toNat = 7 → Answers (.rdreg reg) s s .ok (s.tlm.setWidth 32)) ∧
      (reg.toNat = 8 → Answers (.rdreg reg) s s .ok (s.how.setWidth 32)) ∧
      (∀ k : Fin 11, reg.toNat = k.val + 9 → Answers (.rdreg reg) s s .ok s.fld[k]))

/-- WRFRM (R262): the one register and FRAME_VALID, nothing else. -/
def Obligations.WrfrmWritesOneFrameRegister : Prop :=
  ∀ (reg : BitVec 5) (v : Word) (s : State),
    decode ⟨0x03#8 ++ (0#19 ++ reg), v⟩ = .ok (.wrfrm reg v) ∧
    ((reg.toNat ≤ 6 ∨ 20 ≤ reg.toNat) → FailsWith (.wrfrm reg v) s .badCommand) ∧
    (7 ≤ reg.toNat → reg.toNat ≤ 19 → s.built = false → FailsWith (.wrfrm reg v) s .wrongMode) ∧
    (s.built = true →
      (reg.toNat = 7 → exec (.wrfrm reg v) s = .next
        { s with tlm := v.extractLsb' 0 16, frameValid := false, response := some ⟨.ok, 0⟩ }) ∧
      (reg.toNat = 8 → exec (.wrfrm reg v) s = .next
        { s with how := v.extractLsb' 0 22, frameValid := false, response := some ⟨.ok, 0⟩ }) ∧
      (∀ k : Fin 11, reg.toNat = k.val + 9 → exec (.wrfrm reg v) s = .next
        { s with fld := s.fld.set k v, frameValid := false, response := some ⟨.ok, 0⟩ }))

/-! ## Bit Cursor -/

/-- SB.CLR (R121). -/
def Obligations.SbClrEmptiesTheStagingBuffer : Prop :=
  ∀ (s : State) (a : Word),
    decode ⟨0x10000000, a⟩ = .ok .sbClr ∧
    (s.built = true → s.cmode = .closed → exec .sbClr s = .next { s with sb := [], response := some ⟨.ok, 0⟩ }) ∧
    (¬ (s.built = true ∧ s.cmode = .closed) → FailsWith .sbClr s .wrongMode)

/-- SB.PUSH (R122): one entry at the end, and the new count; a full buffer is OutOfRange. -/
def Obligations.SbPushAppendsOneEntry : Prop :=
  ∀ (b : Byte) (p : BitVec 3) (s : State) (a : Word),
    decode ⟨0x11#8 ++ (0#13 ++ p ++ b), a⟩ = .ok (.sbPush b p) ∧
    (s.built = true → s.cmode = .closed → s.sb.length < capBytes → exec (.sbPush b p) s = .next
      { s with sb := s.sb ++ [⟨b, p⟩], response := some ⟨.ok, BitVec.ofNat 32 (s.sb.length + 1)⟩ }) ∧
    (s.built = true → s.cmode = .closed → capBytes ≤ s.sb.length → FailsWith (.sbPush b p) s .outOfRange) ∧
    (¬ (s.built = true ∧ s.cmode = .closed) → FailsWith (.sbPush b p) s .wrongMode)

/-- `strip` (R62): its length, and the stream position of every data bit of every byte. -/
def Obligations.StripMapsEveryDataBit : Prop :=
  ∀ (sb : List SBEntry) (usepad : Bool),
    let padOf : SBEntry → Nat := fun e => if usepad then e.pad.toNat else 0
    (strip sb usepad).length = (sb.map (fun e => 8 - padOf e)).sum ∧
    (usepad = false → (strip sb usepad).length = 8 * sb.length) ∧
    ∀ (i : Nat) (hi : i < sb.length) (o : Nat), o < 8 - padOf sb[i] →
      (strip sb usepad)[((sb.take i).map (fun e => 8 - padOf e)).sum + o]? = some (sb[i].byte.getLsbD (7 - o))

/-- BC.OPEN (R123): a Decode cursor over the staging buffer; PREV2 and SB are not touched. -/
def Obligations.BcOpenMakesADecodeCursor : Prop :=
  ∀ (u : Bool) (s : State) (a : Word),
    decode ⟨0x20#8 ++ (0#23 ++ BitVec.ofBool u), a⟩ = .ok (.bcOpen u) ∧
    (s.built = true → s.cmode = .closed → exec (.bcOpen u) s = .next
      { s with stream := strip s.sb u, pos := 0, cmode := .decode,
               response := some ⟨.ok, BitVec.ofNat 32 (strip s.sb u).length⟩ }) ∧
    (strip s.sb false).length = 8 * s.sb.length ∧
    (strip s.sb true).length = (s.sb.map (fun e => 8 - e.pad.toNat)).sum ∧
    (¬ (s.built = true ∧ s.cmode = .closed) → FailsWith (.bcOpen u) s .wrongMode)

/-- BC.OPENW (R124) and BC.OPENC (R125): the two empty cursors; only BC.OPENC zeroes PREV2. -/
def Obligations.EmptyCursorsAreOpened : Prop :=
  ∀ (s : State) (a : Word),
    decode ⟨0x21000000, a⟩ = .ok .bcOpenW ∧ decode ⟨0x22000000, a⟩ = .ok .bcOpenC ∧
    (s.built = true → s.cmode = .closed →
      exec .bcOpenW s = .next { s with stream := [], pos := 0, cmode := .encode, response := some ⟨.ok, 0⟩ } ∧
      exec .bcOpenC s = .next { s with stream := [], pos := 0, prev2 := 0, cmode := .carry, response := some ⟨.ok, 0⟩ }) ∧
    (¬ (s.built = true ∧ s.cmode = .closed) → FailsWith .bcOpenW s .wrongMode ∧ FailsWith .bcOpenC s .wrongMode)

/-- BC.CLOSE (R126): the cursor ends; in Decode and Carry mode PREV2 becomes the two stream bits before POS. -/
def Obligations.BcCloseEndsTheCursor : Prop :=
  ∀ (s : State) (a : Word),
    decode ⟨0x23000000, a⟩ = .ok .bcClose ∧
    (s.built = true → ∃ pv : BitVec 2,
      exec .bcClose s = .next { s with prev2 := pv, stream := [], pos := 0, cmode := .closed, response := some ⟨.ok, 0⟩ } ∧
      (s.cmode = .closed ∨ s.cmode = .encode → pv = s.prev2) ∧
      (s.cmode = .decode ∨ s.cmode = .carry →
        (s.pos = 0 → pv = s.prev2) ∧
        (∀ h : 0 < s.stream.length, s.pos = 1 →
          pv = BitVec.ofBool (s.prev2.getLsbD 0) ++ BitVec.ofBool s.stream[0]) ∧
        (∀ (q : Nat) (h : q + 1 < s.stream.length), s.pos = q + 2 →
          pv = BitVec.ofBool s.stream[q] ++ BitVec.ofBool s.stream[q + 1]))) ∧
    (s.built = false → FailsWith .bcClose s .wrongMode)

/-- BC.PEEK (R127): exactly n bits from POS, first bit most significant, and no state written. -/
def Obligations.BcPeekReadsWithoutAdvancing : Prop :=
  ∀ (n : BitVec 24) (s : State) (a : Word),
    decode ⟨0x24#8 ++ n, a⟩ = .ok (.bcPeek n) ∧
    (33 ≤ n.toNat → FailsWith (.bcPeek n) s .badCommand) ∧
    (n.toNat ≤ 32 → ¬ (s.built = true ∧ (s.cmode = .decode ∨ s.cmode = .carry)) → FailsWith (.bcPeek n) s .wrongMode) ∧
    (n.toNat ≤ 32 → s.built = true → (s.cmode = .decode ∨ s.cmode = .carry) → s.stream.length - s.pos < n.toNat →
      FailsWith (.bcPeek n) s .insufficientData) ∧
    (n.toNat ≤ 32 → s.built = true → (s.cmode = .decode ∨ s.cmode = .carry) → n.toNat ≤ s.stream.length - s.pos →
      ∃ res : Word, exec (.bcPeek n) s = .next (s.answer .ok res) ∧
        (∀ j, j < n.toNat → s.stream[s.pos + j]? = some (res.getLsbD (n.toNat - 1 - j))) ∧
        (∀ k, n.toNat ≤ k → res.getLsbD k = false))

/-- BC.ADV (R128): POS moves by n, to LEN at most; beyond, nothing changes. -/
def Obligations.BcAdvMovesThePosition : Prop :=
  ∀ (n : BitVec 24) (s : State) (a : Word),
    decode ⟨0x25#8 ++ n, a⟩ = .ok (.bcAdv n) ∧
    (¬ (s.built = true ∧ (s.cmode = .decode ∨ s.cmode = .carry)) → FailsWith (.bcAdv n) s .wrongMode) ∧
    (s.built = true → (s.cmode = .decode ∨ s.cmode = .carry) → s.stream.length < s.pos + n.toNat →
      FailsWith (.bcAdv n) s .outOfRange) ∧
    (s.built = true → (s.cmode = .decode ∨ s.cmode = .carry) → s.pos + n.toNat ≤ s.stream.length →
      exec (.bcAdv n) s = .next
        { s with pos := s.pos + n.toNat, response := some ⟨.ok, BitVec.ofNat 32 (s.pos + n.toNat)⟩ })

/-- BC.POS (R129): POS, in every mode with a cursor; RDREG POS gives the same value and works without one, where it is 0; in
Encode mode the value is the number of bits written (both by the invariants of R39). -/
def Obligations.BcPosReturnsThePosition : Prop :=
  ∀ (s : State) (a : Word),
    decode ⟨0x26000000, a⟩ = .ok .bcPos ∧
    (s.built = true → s.cmode ≠ .closed → exec .bcPos s = .next (s.answer .ok (BitVec.ofNat 32 s.pos))) ∧
    (s.built = true → exec (.rdreg 2) s = .next (s.answer .ok (BitVec.ofNat 32 s.pos))) ∧
    (s.built = true → s.Sound → s.cmode = .closed → exec (.rdreg 2) s = .next (s.answer .ok 0)) ∧
    (s.built = true → s.Sound → s.cmode = .encode → exec .bcPos s = .next (s.answer .ok (BitVec.ofNat 32 s.stream.length))) ∧
    (¬ (s.built = true ∧ s.cmode ≠ .closed) → FailsWith .bcPos s .wrongMode)

/-- BC.PUT (R130): the n low bits of ARG at the end, most significant first; POS = LEN; what is written reads back. -/
def Obligations.BcPutAppendsTheLowBits : Prop :=
  ∀ (n : BitVec 24) (v : Word) (s : State),
    decode ⟨0x27#8 ++ n, v⟩ = .ok (.bcPut n v) ∧
    (33 ≤ n.toNat → FailsWith (.bcPut n v) s .badCommand) ∧
    (n.toNat ≤ 32 → ¬ (s.built = true ∧ s.cmode = .encode) → FailsWith (.bcPut n v) s .wrongMode) ∧
    (n.toNat ≤ 32 → s.built = true → s.cmode = .encode → capBits < s.stream.length + n.toNat →
      FailsWith (.bcPut n v) s .outOfRange) ∧
    (n.toNat ≤ 32 → s.built = true → s.cmode = .encode → s.stream.length + n.toNat ≤ capBits →
      ∃ bits : List Bool, exec (.bcPut n v) s = .next
          { s with stream := s.stream ++ bits, pos := s.stream.length + n.toNat,
                   response := some ⟨.ok, BitVec.ofNat 32 (s.stream.length + n.toNat)⟩ } ∧
        bits.length = n.toNat ∧ (∀ j, j < n.toNat → bits[j]? = some (v.getLsbD (n.toNat - 1 - j))) ∧
        takeBits (s.stream ++ bits) s.stream.length n.toNat = v.setWidth n.toNat)

/-- BC.APPEND (R131): the byte's 8 - pad high bits at the end; POS stays; the stream is that of BC.OPEN usepad. -/
def Obligations.BcAppendAddsTheDataBits : Prop :=
  ∀ (b : Byte) (p : BitVec 3) (s : State) (a : Word),
    decode ⟨0x28#8 ++ (0#13 ++ p ++ b), a⟩ = .ok (.bcAppend b p) ∧
    (¬ (s.built = true ∧ s.cmode = .carry) → FailsWith (.bcAppend b p) s .wrongMode) ∧
    (s.built = true → s.cmode = .carry → capBits < s.stream.length + (8 - p.toNat) →
      FailsWith (.bcAppend b p) s .outOfRange) ∧
    (s.built = true → s.cmode = .carry → s.stream.length + (8 - p.toNat) ≤ capBits →
      ∃ bits : List Bool, exec (.bcAppend b p) s = .next
          { s with stream := s.stream ++ bits,
                   response := some ⟨.ok, BitVec.ofNat 32 (s.stream.length + (8 - p.toNat))⟩ } ∧
        bits.length = 8 - p.toNat ∧ (∀ j, j < 8 - p.toNat → bits[j]? = some (b.getLsbD (7 - j))) ∧
        ∀ sb : List SBEntry, s.stream = strip sb true → s.stream ++ bits = strip (sb ++ [⟨b, p⟩]) true)

/-- BC.DROP (R132): the bits before POS go, the two last of them into PREV2; what is read at the position and the two bits
before any position that stays are as before. -/
def Obligations.BcDropDiscardsTheConsumedBits : Prop :=
  ∀ (s : State) (a : Word),
    decode ⟨0x29000000, a⟩ = .ok .bcDrop ∧
    (¬ (s.built = true ∧ s.cmode = .carry) → FailsWith .bcDrop s .wrongMode) ∧
    (s.built = true → s.cmode = .carry → ∃ pv : BitVec 2,
      exec .bcDrop s = .next { s with prev2 := pv, stream := s.stream.drop s.pos, pos := 0,
                                      response := some ⟨.ok, BitVec.ofNat 32 s.pos⟩ } ∧
      (s.pos = 0 → pv = s.prev2) ∧
      (∀ h : 0 < s.stream.length, s.pos = 1 →
        pv = BitVec.ofBool (s.prev2.getLsbD 0) ++ BitVec.ofBool s.stream[0]) ∧
      (∀ (q : Nat) (h : q + 1 < s.stream.length), s.pos = q + 2 →
        pv = BitVec.ofBool s.stream[q] ++ BitVec.ofBool s.stream[q + 1]) ∧
      (s.pos ≤ s.stream.length → ∀ k n : Nat,
        prev2At pv (s.stream.drop s.pos) k = prev2At s.prev2 s.stream (s.pos + k) ∧
        takeBits (s.stream.drop s.pos) k n = takeBits s.stream (s.pos + k) n))

/-- BC.RDB (R133, R63): stream bits 8*idx to 8*idx+7, first bit most significant, 0 in place of a bit at or beyond LEN. -/
def Obligations.BcRdbReadsAPackedByte : Prop :=
  ∀ (idx : BitVec 24) (s : State) (a : Word),
    decode ⟨0x2A#8 ++ idx, a⟩ = .ok (.bcRdb idx) ∧
    (¬ (s.built = true ∧ s.cmode ≠ .closed) → FailsWith (.bcRdb idx) s .wrongMode) ∧
    (s.built = true → s.cmode ≠ .closed → s.stream.length ≤ 8 * idx.toNat → FailsWith (.bcRdb idx) s .outOfRange) ∧
    (s.built = true → s.cmode ≠ .closed → 8 * idx.toNat < s.stream.length →
      ∃ res : Word, exec (.bcRdb idx) s = .next (s.answer .ok res) ∧
        (∀ j, j < 8 → res.getLsbD (7 - j) = s.stream.getD (8 * idx.toNat + j) false) ∧
        (∀ k, 8 ≤ k → res.getLsbD k = false))

/-- R134 items 2 to 4: a peek says when an advance of up to 32 bits succeeds and the other way round, and a peek of a + b bits
is the peek of a followed by the peek of b at the position a further on. -/
def Obligations.PeekSplitsAtEveryPoint : Prop :=
  (∀ (s : State) (n : BitVec 24), s.built = true → (s.cmode = .decode ∨ s.cmode = .carry) → s.pos ≤ s.stream.length →
    ((∃ res, exec (.bcPeek n) s = .next (s.answer .ok res)) ↔ (n.toNat ≤ 32 ∧ n.toNat ≤ s.stream.length - s.pos)) ∧
    ((∃ t, exec (.bcAdv n) s = .next t ∧ t.pos = s.pos + n.toNat ∧ ∃ res, t.response = some ⟨.ok, res⟩) ↔
      n.toNat ≤ s.stream.length - s.pos)) ∧
  (∀ (s : State) (m n k : BitVec 24), m.toNat + n.toNat = k.toNat → k.toNat ≤ 32 → s.built = true →
    (s.cmode = .decode ∨ s.cmode = .carry) → s.pos + k.toNat ≤ s.stream.length →
    ∃ (x y z : Word) (t : State), exec (.bcPeek k) s = .next (s.answer .ok z) ∧
      exec (.bcPeek m) s = .next (s.answer .ok x) ∧ exec (.bcAdv m) s = .next t ∧
      exec (.bcPeek n) t = .next (t.answer .ok y) ∧ z = (x <<< n.toNat) ||| y)

/-- R134 item 6: appending the data bits of padded bytes to an empty Carry cursor gives the stream of BC.OPEN usepad over the
same bytes, and that of BC.OPEN without usepad over any bytes that pack those bits densely. -/
def Obligations.PaddedAndDenseStreamsAgree : Prop :=
  (∀ (entries : List SBEntry) (s : State), s.built = true → s.cmode = .carry → s.stream = [] →
    (strip entries true).length ≤ capBits →
    (issue (entries.map (fun e => .bcAppend e.byte e.pad)) s).2.stream = strip entries true ∧
    (issue (entries.map (fun e => .bcAppend e.byte e.pad)) s).1.length = entries.length) ∧
  (∀ entries dense : List SBEntry, (strip entries true).length = 8 * dense.length →
    (∀ (i : Nat) (h : i < dense.length), dense[i].byte = takeBits (strip entries true) (8 * i) 8) →
    strip dense false = strip entries true)

/-- R134 item 7: a stream read out byte by byte with BC.RDB and loaded again without padding gives the stream back, with at most
7 zero bits after it. -/
def Obligations.ReadOutThenLoadGivesTheStream : Prop :=
  ∀ bs : List Bool,
    strip ((List.range ((bs.length + 7) / 8)).map (fun i => ⟨pack bs i, 0⟩)) false =
      bs ++ List.replicate (8 * ((bs.length + 7) / 8) - bs.length) false ∧
    8 * ((bs.length + 7) / 8) - bs.length ≤ 7

/-- R66: `prev2_at(p)` in every mode with a cursor: both bits from the carry at 0, one at 1, stream bits from 2 on; the carry
is PREV2 in Decode and Carry mode and 00 in Encode mode. -/
def Obligations.PrevTwoBitsComeFromTheStreamOrTheCarry : Prop :=
  ∀ s : State,
    ((s.cmode = .decode ∨ s.cmode = .carry) → s.carryBits = s.prev2) ∧ (s.cmode = .encode → s.carryBits = 0) ∧
    prev2At s.carryBits s.stream 0 = s.carryBits ∧
    (∀ h : 0 < s.stream.length,
      prev2At s.carryBits s.stream 1 = BitVec.ofBool (s.carryBits.getLsbD 0) ++ BitVec.ofBool s.stream[0]) ∧
    (∀ (q : Nat) (h : q + 1 < s.stream.length),
      prev2At s.carryBits s.stream (q + 2) = BitVec.ofBool s.stream[q] ++ BitVec.ofBool s.stream[q + 1])

/-! ## Parity Engine -/

/-- PAR.COMP (R162): the parity of the source data in ARG, whatever PARITY_EN is; no state is written. -/
def Obligations.ParCompReturnsTheParity : Prop :=
  ∀ (v : Word) (s : State),
    decode ⟨0x30000000, v⟩ = .ok (.parComp v) ∧
    (s.built = true → exec (.parComp v) s =
      .next (s.answer .ok ((parity (v.extractLsb' 2 24) (v.extractLsb' 0 2)).setWidth 32))) ∧
    (s.built = false → FailsWith (.parComp v) s .wrongMode) ∧
    parity 0 0 = 0x00 ∧ parity 0 1 = 0x16 ∧ parity 0 2 = 0x29 ∧ parity 0 3 = 0x3F

/-- PAR.VRFY (R163): RES = 1 when the parity of the corrected data is the word's parity, else 0, with ST = OK both times. -/
def Obligations.ParVrfyChecksTheWord : Prop :=
  ∀ (v : Word) (s : State),
    decode ⟨0x31000000, v⟩ = .ok (.parVrfy v) ∧
    (s.built = true → exec (.parVrfy v) s = .next (s.answer .ok
      (if parity (correct (v.extractLsb' 8 24) (v.extractLsb' 0 2)) (v.extractLsb' 0 2) = v.extractLsb' 2 6 then 1 else 0))) ∧
    (s.built = false → FailsWith (.parVrfy v) s .wrongMode) ∧
    (∀ p : BitVec 2, wordOk 0 p = true ↔ p = 0) ∧ wordOk 0x3FFFFFFF 3 = true

/-- R161: the six equations of the default PAR, and the same relation as masks. That PAR is this default is the model's reading
of a parameter of the spec (log entry 5). -/
def Obligations.ParityIsTheSixEquations : Prop :=
  ∀ (d : BitVec 24) (p : BitVec 2),
    let b : Nat → Bool := fun k => d.getLsbD (24 - k)
    let sum : List Nat → Bool := fun ks => (ks.map b).foldl xor false
    let d29 := p.getLsbD 1
    let d30 := p.getLsbD 0
    (parity d p).getLsbD 5 = xor d29 (sum [1, 2, 3, 5, 6, 10, 11, 12, 13, 14, 17, 18, 20, 23]) ∧
    (parity d p).getLsbD 4 = xor d30 (sum [2, 3, 4, 6, 7, 11, 12, 13, 14, 15, 18, 19, 21, 24]) ∧
    (parity d p).getLsbD 3 = xor d29 (sum [1, 3, 4, 5, 7, 8, 12, 13, 14, 15, 16, 19, 20, 22]) ∧
    (parity d p).getLsbD 2 = xor d30 (sum [2, 4, 5, 6, 8, 9, 13, 14, 15, 16, 17, 20, 21, 23]) ∧
    (parity d p).getLsbD 1 = xor d30 (sum [1, 3, 5, 6, 7, 9, 10, 14, 15, 16, 17, 18, 21, 22, 24]) ∧
    (parity d p).getLsbD 0 = xor d29 (sum [3, 5, 6, 8, 9, 10, 11, 13, 15, 19, 22, 23, 24]) ∧
    (parity d p).getLsbD 5 = xor d29 (xorReduce (d &&& 0xEC7CD2)) ∧
    (parity d p).getLsbD 4 = xor d30 (xorReduce (d &&& 0x763E69)) ∧
    (parity d p).getLsbD 3 = xor d29 (xorReduce (d &&& 0xBB1F34)) ∧
    (parity d p).getLsbD 2 = xor d30 (xorReduce (d &&& 0x5D8F9A)) ∧
    (parity d p).getLsbD 1 = xor d30 (xorReduce (d &&& 0xAEC7CD)) ∧
    (parity d p).getLsbD 0 = xor d29 (xorReduce (d &&& 0x2DEA27))

/-- R160 and R164: the correction is its own inverse and complements all 24 data bits exactly when D30* = 1; `encword` is the
corrected data over the parity; `checkword` of it gives the data back and verifies. -/
def Obligations.EncodedWordsVerify : Prop :=
  ∀ (d : BitVec 24) (p : BitVec 2) (w : BitVec 30),
    correct (correct d p) p = d ∧ (p.getLsbD 0 = false → correct d p = d) ∧ (p.getLsbD 0 = true → correct d p = ~~~d) ∧
    (encword d p).extractLsb' 6 24 = correct d p ∧ (encword d p).extractLsb' 0 6 = parity d p ∧
    wordData w p = correct (w.extractLsb' 6 24) p ∧
    (wordOk w p = true ↔ parity (wordData w p) p = w.extractLsb' 0 6) ∧
    wordData (encword d p) p = d ∧ wordOk (encword d p) p = true

/-- R166: PAR is linear; every data bit, every parity bit and the carried bits count; the last two data bits can steer the last
two parity bits in exactly one way. It rests on the default PAR (log entry 5). -/
def Obligations.ParityPropertiesHold : Prop :=
  (∀ (d e : BitVec 24) (p q : BitVec 2), parity (d ^^^ e) (p ^^^ q) = parity d p ^^^ parity e q) ∧ parity 0 0 = 0 ∧
  (∀ k, k < 24 → 3 ≤ parityRows.countP (fun row => row.mask.getLsbD k)) ∧
  (∀ (d : BitVec 24) (p : BitVec 2) (k : Nat), k < 24 →
    3 ≤ (List.range 6).countP (fun j => (parity (d ^^^ (1#24 <<< k)) p).getLsbD j != (parity d p).getLsbD j)) ∧
  (∀ (w : BitVec 30) (p : BitVec 2) (k : Nat), k < 30 → wordOk w p = true → wordOk (w ^^^ (1#30 <<< k)) p = false) ∧
  (∀ (d : BitVec 24) (p q : BitVec 2), p ≠ q → parity d p ≠ parity d q) ∧
  (parity 0 0 = 0x00 ∧ parity 0 1 = 0x16 ∧ parity 0 2 = 0x29 ∧ parity 0 3 = 0x3F) ∧
  (∀ (w : BitVec 30) (p q : BitVec 2), p ≠ q → wordOk w p = true → wordOk w q = false) ∧
  (∀ (d : BitVec 24) (p : BitVec 2), d.extractLsb' 0 2 = 0 →
    ∃ t : BitVec 24, t.toNat < 4 ∧ (parity (d ||| t) p).extractLsb' 0 2 = 0 ∧
      ∀ u : BitVec 24, u.toNat < 4 → (parity (d ||| u) p).extractLsb' 0 2 = 0 → u = t)

/-! ## Subframe codec -/

/-- R200 and R201: the ten words of a subframe, where they stand and which two bits precede each. -/
def Obligations.SubframeWordsStandBackToBack : Prop :=
  ∀ (v : View) (p w : Nat), 1 ≤ w → w ≤ 10 → p + 300 ≤ v.stream.length →
    (∀ k, 1 ≤ k → k ≤ 30 → v.stream[p + 30 * (w - 1) + (k - 1)]? = some ((wordAt v p w).getLsbD (30 - k))) ∧
    (w = 1 → carriedAt v p w = prev2At v.carry v.stream p) ∧
    (2 ≤ w → carriedAt v p w = (wordAt v p (w - 1)).extractLsb' 0 2) ∧
    dataAt v p w = correct ((wordAt v p w).extractLsb' 6 24) (carriedAt v p w) ∧
    (okAt v p w = true ↔ parity (dataAt v p w) (carriedAt v p w) = (wordAt v p w).extractLsb' 0 6)

/-- R202: the validity flag of each word, and the count of failing words. -/
def Obligations.ValidityFlagsOfADecode : Prop :=
  ∀ (v : View) (p : Nat),
    (∀ w, 1 ≤ w → w ≤ 10 → flagOf (decodeSubframe v p).vflags w =
      (if v.parityEn = true then (if okAt v p w = true then 1#2 else 2#2) else 0#2)) ∧
    (decodeSubframe v p).fails =
      ((List.range 10).filter (fun j => flagOf (decodeSubframe v p).vflags (j + 1) == 2#2)).length ∧
    (v.parityEn = false → (decodeSubframe v p).fails = 0 ∧ (decodeSubframe v p).vflags = 0)

/-- R203 and R204: the Telemetry Word and the Handover Word of a decode, field by field; and the FLD registers of the decode
(R205, R206, R211): the fields of the identifier found, cut from the source data of the same ten words, and all 0 for an
unsupported identifier. -/
def Obligations.FixedWordsOfADecode : Prop :=
  ∀ (v : View) (p : Nat),
    let c := decodeSubframe v p
    c.tlm.extractLsb' 0 14 = (dataAt v p 1).extractLsb' 2 14 ∧ c.tlm.getLsbD 14 = (dataAt v p 1).getLsbD 1 ∧
    c.tlm.getLsbD 15 = (dataAt v p 1).getLsbD 0 ∧
    c.how.extractLsb' 0 17 = (dataAt v p 2).extractLsb' 7 17 ∧ c.how.getLsbD 17 = (dataAt v p 2).getLsbD 6 ∧
    c.how.getLsbD 18 = (dataAt v p 2).getLsbD 5 ∧ c.how.extractLsb' 19 3 = (dataAt v p 2).extractLsb' 2 3 ∧
    c.sfid = (dataAt v p 2).extractLsb' 2 3 ∧ c.fld = fieldsOf c.sfid (dataAt v p) ∧
    (¬ (c.sfid = 1 ∨ c.sfid = 2 ∨ c.sfid = 3) → c.fld = Vector.replicate 11 0)

/-- R208 with R206: the fields of subframe 1, their exponents, and the reserved bits an encode writes 0; what an encode places
from any registers, fitting or not, decodes to the extension of the low bits of each. The map is the spec's default for a
parameter (log entry 6). -/
def Obligations.FieldMapOfSubframeOne : Prop :=
  (∀ d : Nat → BitVec 24,
    fieldsOf 1 d =
      #v[((d 3).extractLsb' 14 10).setWidth 32, ((d 3).extractLsb' 12 2).setWidth 32, ((d 3).extractLsb' 8 4).setWidth 32,
         ((d 3).extractLsb' 2 6).setWidth 32, ((d 3).extractLsb' 0 2 ++ (d 8).extractLsb' 16 8).setWidth 32,
         ((d 4).extractLsb' 23 1).setWidth 32, ((d 7).extractLsb' 0 8).signExtend 32, ((d 8).extractLsb' 0 16).setWidth 32,
         ((d 9).extractLsb' 16 8).signExtend 32, ((d 9).extractLsb' 0 16).signExtend 32,
         ((d 10).extractLsb' 2 22).signExtend 32]) ∧
  fieldMap1.map (fun e => e.exponent) = [0, 0, 0, 0, 0, 0, -31, 4, -55, -43, -31] ∧
  fieldMap1.map (fun e => e.unit) =
    ["weeks", "none", "index", "none", "none", "none", "seconds", "seconds", "s/s^2", "s/s", "seconds"] ∧
  (∀ fld : Vector Word 11, (placeFields fieldMap1 fld 4).extractLsb' 0 23 = 0 ∧ placeFields fieldMap1 fld 5 = 0 ∧
    placeFields fieldMap1 fld 6 = 0 ∧ (placeFields fieldMap1 fld 7).extractLsb' 8 16 = 0 ∧
    (placeFields fieldMap1 fld 10).extractLsb' 0 2 = 0) ∧
  (∀ fld : Vector Word 11, fieldsOf 1 (placeFields fieldMap1 fld) =
    #v[(fld[0].extractLsb' 0 10).setWidth 32, (fld[1].extractLsb' 0 2).setWidth 32, (fld[2].extractLsb' 0 4).setWidth 32,
       (fld[3].extractLsb' 0 6).setWidth 32, (fld[4].extractLsb' 0 10).setWidth 32, (fld[5].extractLsb' 0 1).setWidth 32,
       (fld[6].extractLsb' 0 8).signExtend 32, (fld[7].extractLsb' 0 16).setWidth 32, (fld[8].extractLsb' 0 8).signExtend 32,
       (fld[9].extractLsb' 0 16).signExtend 32, (fld[10].extractLsb' 0 22).signExtend 32])

/-- R209 with R206: the fields of subframe 2 and their exponents; what an encode places from any registers, fitting or not,
decodes to the extension of the low bits of each. The map is the spec's default for a parameter (log entry 6). -/
def Obligations.FieldMapOfSubframeTwo : Prop :=
  (∀ d : Nat → BitVec 24,
    fieldsOf 2 d =
      #v[((d 3).extractLsb' 16 8).setWidth 32, ((d 3).extractLsb' 0 16).signExtend 32, ((d 4).extractLsb' 8 16).signExtend 32,
         (d 4).extractLsb' 0 8 ++ (d 5).extractLsb' 0 24, ((d 6).extractLsb' 8 16).signExtend 32,
         (d 6).extractLsb' 0 8 ++ (d 7).extractLsb' 0 24, ((d 8).extractLsb' 8 16).signExtend 32,
         (d 8).extractLsb' 0 8 ++ (d 9).extractLsb' 0 24, ((d 10).extractLsb' 8 16).setWidth 32,
         ((d 10).extractLsb' 7 1).setWidth 32, ((d 10).extractLsb' 2 5).setWidth 32]) ∧
  fieldMap2.map (fun e => e.exponent) = [0, -5, -43, -31, -29, -33, -29, -19, 4, 0, 0] ∧
  fieldMap2.map (fun e => e.multiplier) = [1, 1, 1, 1, 1, 1, 1, 1, 1, 1, 900] ∧
  (∀ fld : Vector Word 11, (placeFields fieldMap2 fld 10).extractLsb' 0 2 = 0) ∧
  (∀ fld : Vector Word 11, fieldsOf 2 (placeFields fieldMap2 fld) =
    #v[(fld[0].extractLsb' 0 8).setWidth 32, (fld[1].extractLsb' 0 16).signExtend 32, (fld[2].extractLsb' 0 16).signExtend 32,
       fld[3], (fld[4].extractLsb' 0 16).signExtend 32, fld[5], (fld[6].extractLsb' 0 16).signExtend 32, fld[7],
       (fld[8].extractLsb' 0 16).setWidth 32, (fld[9].extractLsb' 0 1).setWidth 32, (fld[10].extractLsb' 0 5).setWidth 32])

/-- R210 with R206: the fields of subframe 3 and their exponents; FLD9 and FLD10 are 0 after a decode and ignored by an encode;
what an encode places from any registers, fitting or not, decodes to the extension of the low bits of each. The map is the
spec's default for a parameter (log entry 6). -/
def Obligations.FieldMapOfSubframeThree : Prop :=
  (∀ d : Nat → BitVec 24,
    fieldsOf 3 d =
      #v[((d 3).extractLsb' 8 16).signExtend 32, (d 3).extractLsb' 0 8 ++ (d 4).extractLsb' 0 24,
         ((d 5).extractLsb' 8 16).signExtend 32, (d 5).extractLsb' 0 8 ++ (d 6).extractLsb' 0 24,
         ((d 7).extractLsb' 8 16).signExtend 32, (d 7).extractLsb' 0 8 ++ (d 8).extractLsb' 0 24,
         ((d 9).extractLsb' 0 24).signExtend 32, ((d 10).extractLsb' 16 8).setWidth 32,
         ((d 10).extractLsb' 2 14).signExtend 32, 0, 0]) ∧
  fieldMap3.map (fun e => e.exponent) = [-29, -31, -29, -31, -5, -31, -43, 0, -43] ∧
  (∀ (fld : Vector Word 11) (x y : Word) (w : Nat),
    placeFields fieldMap3 ((fld.set 9 x).set 10 y) w = placeFields fieldMap3 fld w) ∧
  (∀ fld : Vector Word 11, (placeFields fieldMap3 fld 10).extractLsb' 0 2 = 0) ∧
  (∀ fld : Vector Word 11, fieldsOf 3 (placeFields fieldMap3 fld) =
    #v[(fld[0].extractLsb' 0 16).signExtend 32, fld[1], (fld[2].extractLsb' 0 16).signExtend 32, fld[3],
       (fld[4].extractLsb' 0 16).signExtend 32, fld[5], (fld[6].extractLsb' 0 24).signExtend 32,
       (fld[7].extractLsb' 0 8).setWidth 32, (fld[8].extractLsb' 0 14).signExtend 32, 0, 0])

/-- SF.DEC (R212): the frame registers, VFLAGS, FRAME_VALID and POS on success, nothing otherwise; parity never fails it. -/
def Obligations.SfDecDecodesAtThePosition : Prop :=
  ∀ (s : State) (a : Word),
    decode ⟨0x41000000, a⟩ = .ok .sfDec ∧
    (¬ (s.built = true ∧ (s.cmode = .decode ∨ s.cmode = .carry)) → FailsWith .sfDec s .wrongMode) ∧
    (s.built = true → (s.cmode = .decode ∨ s.cmode = .carry) → s.stream.length - s.pos < 300 →
      FailsWith .sfDec s .insufficientData) ∧
    (s.built = true → (s.cmode = .decode ∨ s.cmode = .carry) → 300 ≤ s.stream.length - s.pos →
      ∃ c : Candidate, c = decodeSubframe ⟨s.parityEn, s.thresh, s.prev2, s.stream⟩ s.pos ∧
        (c.sfid = 1 ∨ c.sfid = 2 ∨ c.sfid = 3 → exec .sfDec s = .next
          { s with tlm := c.tlm, how := c.how, fld := c.fld, vflags := c.vflags, frameValid := true, pos := s.pos + 300,
                   response := some ⟨.ok, BitVec.ofNat 32 c.fails⟩ }) ∧
        (¬ (c.sfid = 1 ∨ c.sfid = 2 ∨ c.sfid = 3) → FailsWith .sfDec s .unsupportedSubframe))

/-- R214: `solve_t` changes the last two data bits only, to the first t whose word ends in 00, and there always is one;
that there is rests on the default PAR (log entry 5). -/
def Obligations.SolvedWordsEndInZeros : Prop :=
  ∀ (d : BitVec 24) (p : BitVec 2), d.extractLsb' 0 2 = 0 →
    ∃ t : BitVec 24, t.toNat < 4 ∧ solveT d p = d ||| t ∧ (parity (solveT d p) p).extractLsb' 0 2 = 0 ∧
      (∀ u : BitVec 24, u.toNat < t.toNat → (parity (d ||| u) p).extractLsb' 0 2 ≠ 0) ∧
      (encword (solveT d p) p).extractLsb' 0 2 = 0

/-- SF.ENC (R215): ten words appended, each with the parity of its data after the two bits before it; words 2 and 10 solved;
the failures in order, with nothing appended. -/
def Obligations.SfEncAppendsOneSubframe : Prop :=
  ∀ (s : State) (a : Word),
    decode ⟨0x42000000, a⟩ = .ok .sfEnc ∧
    (¬ (s.built = true ∧ s.cmode = .encode) → FailsWith .sfEnc s .wrongMode) ∧
    (s.built = true → s.cmode = .encode → capBits < s.stream.length + 300 → FailsWith .sfEnc s .outOfRange) ∧
    (s.built = true → s.cmode = .encode → s.stream.length + 300 ≤ capBits →
      fieldMap (s.how.extractLsb' 19 3) = none → FailsWith .sfEnc s .unsupportedSubframe) ∧
    (s.built = true → s.cmode = .encode → s.stream.length + 300 ≤ capBits →
      ∀ m, fieldMap (s.how.extractLsb' 19 3) = some m → ∃ (d : Nat → BitVec 24) (w : Nat → BitVec 30) (pv : Nat → BitVec 2),
        exec .sfEnc s = .next
          { s with stream := s.stream ++ (bitsOf 30 (w 1) ++ bitsOf 30 (w 2) ++ bitsOf 30 (w 3) ++ bitsOf 30 (w 4) ++
                     bitsOf 30 (w 5) ++ bitsOf 30 (w 6) ++ bitsOf 30 (w 7) ++ bitsOf 30 (w 8) ++ bitsOf 30 (w 9) ++
                     bitsOf 30 (w 10)),
                   pos := s.stream.length + 300, response := some ⟨.ok, BitVec.ofNat 32 (s.stream.length + 300)⟩ } ∧
        (∀ k, 1 ≤ k → k ≤ 10 → w k = encword (d k) (pv k)) ∧
        pv 1 = prev2At 0 s.stream s.stream.length ∧ (∀ k, 1 ≤ k → k ≤ 9 → pv (k + 1) = (w k).extractLsb' 0 2) ∧
        d 1 = preamble ++ s.tlm.extractLsb' 0 14 ++ s.tlm.extractLsb' 14 1 ++ s.tlm.extractLsb' 15 1 ∧
        d 2 = solveT (s.how.extractLsb' 0 17 ++ s.how.extractLsb' 17 1 ++ s.how.extractLsb' 18 1 ++ s.how.extractLsb' 19 3 ++
          0#2) (pv 2) ∧
        (∀ k, 3 ≤ k → k ≤ 9 → d k = placeFields m s.fld k) ∧ d 10 = solveT (placeFields m s.fld 10) (pv 10)) ∧
    (∀ m : BitVec 3, fieldMap m = none ↔ ¬ (m = 1 ∨ m = 2 ∨ m = 3))

/-- R216: the round trip. A well-formed frame encoded by SF.ENC is decoded by SF.DEC, wherever the same 300 bits stand after the
same two bits, to the same TLM, HOW and FLD values; with parity on all ten words are valid and RES = 0. -/
def Obligations.DecodingAnEncodedFrameGivesTheFrame : Prop :=
  ∀ (s u : State) (m : List FieldEntry),
    s.built = true → s.cmode = .encode → s.stream.length + 300 ≤ capBits →
    fieldMap (sfidOfHow s.how) = some m →
    (∀ e ∈ m, s.fld[e.reg] = (if e.signed then (s.fld[e.reg].setWidth (piecesWidth e.pieces)).signExtend 32
      else (s.fld[e.reg].setWidth (piecesWidth e.pieces)).setWidth 32)) →
    (∀ k : Fin 11, (∀ e ∈ m, e.reg ≠ k) → s.fld[k] = 0) →
    ∃ t : State, exec .sfEnc s = .next t ∧
      (u.built = true → (u.cmode = .decode ∨ u.cmode = .carry) →
        (u.stream.drop u.pos).take 300 = t.stream.drop s.stream.length →
        prev2At u.prev2 u.stream u.pos = prev2At 0 s.stream s.stream.length →
        exec .sfDec u = .next
          { u with tlm := s.tlm, how := s.how, fld := s.fld, vflags := if u.parityEn then 0x55555 else 0,
                   frameValid := true, pos := u.pos + 300, response := some ⟨.ok, 0⟩ })

/-! ## Synchronizer and Stream Decoder -/

/-- SYNC.SCAN (R181 to R184): it ends at the first position at which a subframe is accepted, or at which it can decide nothing
for want of bits; the two reasons are those of the candidates rejected before; nothing else is written. -/
def Obligations.SyncScanFindsTheFirstAcceptedSubframe : Prop :=
  ∀ (s : State) (a : Word),
    decode ⟨0x40000000, a⟩ = .ok .syncScan ∧
    (¬ (s.built = true ∧ (s.cmode = .decode ∨ s.cmode = .carry)) → FailsWith .syncScan s .wrongMode) ∧
    (s.built = true → (s.cmode = .decode ∨ s.cmode = .carry) →
      let c : Nat → Candidate := decodeSubframe ⟨s.parityEn, s.thresh, s.prev2, s.stream⟩
      let there : Nat → Prop := fun q => q + 300 ≤ s.stream.length ∧ takeBits s.stream q 8 = preamble
      let unsup : Nat → Prop := fun q => ¬ ((c q).sfid = 1 ∨ (c q).sfid = 2 ∨ (c q).sfid = 3)
      let parrej : Nat → Prop := fun q => s.parityEn = true ∧ s.thresh.toNat ≤ (c q).fails
      ∃ (q : Nat) (u r : Bool), s.pos ≤ q ∧
        (∀ j, s.pos ≤ j → j < q → 8 ≤ s.stream.length - j ∧
          (takeBits s.stream j 8 = preamble → there j ∧ (unsup j ∨ parrej j))) ∧
        (u = true ↔ ∃ j, s.pos ≤ j ∧ j < q ∧ there j ∧ unsup j) ∧
        (r = true ↔ ∃ j, s.pos ≤ j ∧ j < q ∧ there j ∧ parrej j) ∧
        ((there q ∧ ¬ unsup q ∧ ¬ parrej q ∧ exec .syncScan s = .next
            { s with pos := q + 300, consumed := q + 300, fsm := .locked, unsupSeen := u, parrejSeen := r,
                     frameValid := true, tlm := (c q).tlm, how := (c q).how, fld := (c q).fld, vflags := (c q).vflags,
                     response := some ⟨.ok, BitVec.ofNat 32 (q + 300)⟩ }) ∨
         (s.stream.length - q < 8 ∧ exec .syncScan s = .next
            { s with pos := q, consumed := q, fsm := .searching, unsupSeen := u, parrejSeen := r, frameValid := false,
                     response := some ⟨.insufficientData, BitVec.ofNat 32 q⟩ }) ∨
         (8 ≤ s.stream.length - q ∧ takeBits s.stream q 8 = preamble ∧ s.stream.length - q < 300 ∧ exec .syncScan s = .next
            { s with pos := q, consumed := q, fsm := .tentativeLock, unsupSeen := u, parrejSeen := r, frameValid := false,
                     response := some ⟨.insufficientData, BitVec.ofNat 32 q⟩ })))

/-- R185 items 2 to 4: the scan stays within the stream; an accepted frame's preamble stands 300 bits before CONSUMED; an
exhausted scan leaves fewer than 300 bits, fewer than 8 when it was searching. -/
def Obligations.ScanStaysWithinTheStream : Prop :=
  ∀ s : State, s.built = true → (s.cmode = .decode ∨ s.cmode = .carry) → s.pos ≤ s.stream.length →
    ∃ t : State, exec .syncScan s = .next t ∧ s.pos ≤ t.consumed ∧ t.consumed ≤ s.stream.length ∧ t.pos = t.consumed ∧
      (t.frameValid = true → s.pos + 300 ≤ t.consumed ∧ takeBits s.stream (t.consumed - 300) 8 = preamble) ∧
      (t.frameValid = false → s.stream.length - t.consumed < 300 ∧
        (t.fsm = .searching → s.stream.length - t.consumed < 8))

/-- R185 item 6, splitting: a scan that runs out at q, continued from q over a longer stream, ends as one scan from the start
over the longer stream does: at the same position, in the same state of the machine, with the same frame, and with the reasons
for rejection of the two parts together. -/
def Obligations.ScansContinueWhereTheyStopped : Prop :=
  ∀ (parityEn : Bool) (thresh : BitVec 4) (carry : BitVec 2) (bs more : List Bool) (p : Nat),
    (scanFrom ⟨parityEn, thresh, carry, bs⟩ p).frame = none →
    let first := scanFrom ⟨parityEn, thresh, carry, bs⟩ p
    let rest := scanFrom ⟨parityEn, thresh, carry, bs ++ more⟩ first.pos
    let whole := scanFrom ⟨parityEn, thresh, carry, bs ++ more⟩ p
    whole.pos = rest.pos ∧ whole.fsm = rest.fsm ∧ whole.frame = rest.frame ∧
      whole.unsup = (first.unsup || rest.unsup) ∧ whole.parrej = (first.parrej || rest.parrej)

/-- R185 item 5 with R132: a scan depends on the stream from its start on and the two bits before it only, so dropping the
first k bits, with the carry kept up to date, moves its positions by k and changes nothing else. -/
def Obligations.ScansDependOnTheStreamAheadOnly : Prop :=
  ∀ (parityEn : Bool) (thresh : BitVec 4) (carry : BitVec 2) (bs : List Bool) (k p : Nat), k ≤ bs.length →
    let ahead := scanFrom ⟨parityEn, thresh, prev2At carry bs k, bs.drop k⟩ p
    scanFrom ⟨parityEn, thresh, carry, bs⟩ (k + p) = { ahead with pos := k + ahead.pos }

/-- DEC.RAW (R241): BC.OPEN without usepad, SYNC.SCAN and BC.CLOSE in one command, with the scan's response. -/
def Obligations.DecRawIsOpenScanClose : Prop :=
  ∀ (s : State) (a : Word),
    decode ⟨0x48000000, a⟩ = .ok .decRaw ∧
    (¬ (s.built = true ∧ s.cmode = .closed) → FailsWith .decRaw s .wrongMode) ∧
    (s.built = true → s.cmode = .closed → ∃ opened scanned closed : State,
      exec (.bcOpen false) s = .next opened ∧ exec .syncScan opened = .next scanned ∧ exec .bcClose scanned = .next closed ∧
      exec .decRaw s = .next { closed with response := scanned.response } ∧
      closed.cmode = .closed ∧ closed.stream = [] ∧ closed.pos = 0 ∧ closed.sb = s.sb ∧
      closed.consumed ≤ 8 * s.sb.length)

/-- DEC.BYTE (R244): BC.APPEND, SYNC.SCAN and BC.DROP in one command; the scan's status with the number of bits dropped. -/
def Obligations.DecByteIsAppendScanDrop : Prop :=
  ∀ (b : Byte) (p : BitVec 3) (s : State) (a : Word),
    decode ⟨0x49#8 ++ (0#13 ++ p ++ b), a⟩ = .ok (.decByte b p) ∧
    (¬ (s.built = true ∧ s.cmode = .carry) → FailsWith (.decByte b p) s .wrongMode) ∧
    (s.built = true → s.cmode = .carry → capBits < s.stream.length + (8 - p.toNat) →
      FailsWith (.decByte b p) s .outOfRange) ∧
    (s.built = true → s.cmode = .carry → s.stream.length + (8 - p.toNat) ≤ capBits →
      ∃ (grown scanned dropped : State) (st : Status),
        exec (.bcAppend b p) s = .next grown ∧ exec .syncScan grown = .next scanned ∧ exec .bcDrop scanned = .next dropped ∧
        scanned.response = some ⟨st, BitVec.ofNat 32 scanned.consumed⟩ ∧ (st = .ok ∨ st = .insufficientData) ∧
        dropped.response = some ⟨.ok, BitVec.ofNat 32 scanned.consumed⟩ ∧
        exec (.decByte b p) s = .next { dropped with response := some ⟨st, BitVec.ofNat 32 scanned.consumed⟩ })

/-- R246: past its checks a stream decode has exactly two responses, OK with a frame and InsufficientData without, each with
RES = CONSUMED; UnsupportedSubframe is never one. -/
def Obligations.StreamDecodesHaveTwoResponses : Prop :=
  ∀ (s : State) (i : Instr),
    ((i = .decRaw ∧ s.built = true ∧ s.cmode = .closed) ∨
      (∃ b p, i = .decByte b p ∧ s.built = true ∧ s.cmode = .carry ∧ s.stream.length + (8 - p.toNat) ≤ capBits)) →
    ∃ t : State, exec i s = .next t ∧
      ((t.frameValid = true ∧ t.response = some ⟨.ok, BitVec.ofNat 32 t.consumed⟩) ∨
       (t.frameValid = false ∧ t.response = some ⟨.insufficientData, BitVec.ofNat 32 t.consumed⟩ ∧
         t.tlm = s.tlm ∧ t.how = s.how ∧ t.fld = s.fld ∧ t.vflags = s.vflags))

/-- R247: a Carry cursor fed only by DEC.BYTE stays below 300 bits with POS = 0, so DEC.BYTE never answers OutOfRange on it. -/
def Obligations.DecByteKeepsTheCursorShort : Prop :=
  ∀ (b : Byte) (p : BitVec 3) (s : State), s.built = true → s.cmode = .carry → s.pos = 0 → s.stream.length ≤ 299 →
    ∃ (t : State) (st : Status) (res : Word), exec (.decByte b p) s = .next t ∧ t.response = some ⟨st, res⟩ ∧
      (st = .ok ∨ st = .insufficientData) ∧ t.built = true ∧ t.cmode = .carry ∧ t.pos = 0 ∧ t.stream.length ≤ 299 ∧
      (st = .ok → t.stream.length ≤ 7)

/-- R245: the two modes are equivalent. A raw-mode call is what DEC.RAW does to a built instance without a cursor over its staging
buffer; and from a fresh Carry cursor, byte-with-padding mode by DEC.BYTE accepts the same frames at the same positions of the
logical stream as raw-mode calls over that stream with exact discards, and consumes as many bits. -/
def Obligations.BothModesDecodeTheSameFrames : Prop :=
  (∀ s : State, s.built = true → s.cmode = .closed →
    let t := s.rawCall (strip s.sb false)
    exec .decRaw s = .next
      (t.answer (if t.frameValid = true then .ok else .insufficientData) (BitVec.ofNat 32 t.consumed))) ∧
  (∀ (entries : List SBEntry) (s u : State), s.built = true → s.cmode = .carry → s.stream = [] → s.pos = 0 → s.prev2 = 0 →
    u.prev2 = 0 → u.parityEn = s.parityEn → u.thresh = s.thresh →
    feedBytes entries s 0 = rawCalls ((strip entries true).length + 1) (strip entries true) u 0)

/-! ## Status codes -/

/-- R280: the seven codes of ST, each its own; and no command, in any state, answers a code of 7 to 15, or 4. -/
def Obligations.StatusCodesAreTheTable : Prop :=
  (Status.ok.code = 0 ∧ Status.insufficientData.code = 1 ∧ Status.outOfRange.code = 2 ∧ Status.unsupportedSubframe.code = 3 ∧
    Status.parityMismatch.code = 4 ∧ Status.badCommand.code = 5 ∧ Status.wrongMode.code = 6) ∧
  (∀ (i : Instr) (s t : State) (r : Response), exec i s = .next t → t.response = some r →
    r.st.code.toNat ≤ 6 ∧ r.st.code ≠ 4 ∧
      (r.st.code ≠ 0 → r.res = 0 ∨
        (r.st.code = 1 ∧ r.res = BitVec.ofNat 32 t.consumed ∧ (i = .syncScan ∨ i = .decRaw ∨ ∃ b p, i = .decByte b p))))
end

