-- ==== Sys2Proof/Laws/Bits.lean ====
section
/-! SUPPORT. The laws of bits and values (00_scope R15, 20_memory R62, R63, R66): what `bitsVal`, `takeBits`, `bitsOf`,
`dataBits`, `strip`, `pack` and `prev2At` answer. -/

namespace Sys2Proof.Machine

@[simp] theorem bitsVal_nil : bitsVal [] = 0 := rfl

theorem bitsVal_foldl (bs : List Bool) (n : Nat) :
    bs.foldl (fun acc b => 2 * acc + b.toNat) n = n * 2 ^ bs.length + bitsVal bs := by
  induction bs generalizing n with
  | nil => simp
  | cons b bs ih =>
    have h : bitsVal (b :: bs) = b.toNat * 2 ^ bs.length + bitsVal bs := by
      rw [← ih b.toNat, bitsVal, List.foldl_cons, Nat.mul_zero, Nat.zero_add]
    rw [List.foldl_cons, ih, h, List.length_cons, Nat.pow_succ]
    ring

theorem bitsVal_cons (b : Bool) (bs : List Bool) : bitsVal (b :: bs) = b.toNat * 2 ^ bs.length + bitsVal bs := by
  rw [← bitsVal_foldl bs b.toNat, bitsVal, List.foldl_cons, Nat.mul_zero, Nat.zero_add]

theorem bitsVal_append (as bs : List Bool) : bitsVal (as ++ bs) = bitsVal as * 2 ^ bs.length + bitsVal bs := by
  rw [bitsVal, List.foldl_append, bitsVal_foldl bs]; rfl

theorem bitsVal_lt (bs : List Bool) : bitsVal bs < 2 ^ bs.length := by
  induction bs with
  | nil => simp
  | cons b bs ih =>
    rw [bitsVal_cons, List.length_cons, Nat.pow_succ]
    cases b <;> simp <;> omega

@[simp] theorem length_bitsOf (n : Nat) (v : BitVec n) : (bitsOf n v).length = n := by simp [bitsOf]

@[simp] theorem getElem_bitsOf (n : Nat) (v : BitVec n) (j : Nat) (h : j < (bitsOf n v).length) :
    (bitsOf n v)[j] = v.getMsbD j := by simp [bitsOf]

/-- Bit j of the value of a bit list, from the least significant end, is the list's bit counted from its end. -/
theorem testBit_bitsVal (bs : List Bool) (j : Nat) :
    (bitsVal bs).testBit j = if h : j < bs.length then bs[bs.length - 1 - j] else false := by
  induction bs with
  | nil => simp
  | cons b bs ih =>
    rw [bitsVal_cons, Nat.mul_comm, Nat.testBit_two_pow_mul_add _ (bitsVal_lt bs)]
    by_cases hj : j < bs.length
    · have h1 : j < (b :: bs).length := by simp; omega
      have h2 : (b :: bs).length - 1 - j = (bs.length - 1 - j) + 1 := by simp; omega
      simp only [hj, if_true, ih, dif_pos, h1]
      simp only [h2, List.getElem_cons_succ]
    · by_cases hj' : j = bs.length
      · subst hj'
        cases b <;> simp
      · have h1 : ¬ j < (b :: bs).length := by simp; omega
        have h3 : ∃ k, j - bs.length = k + 1 := ⟨j - bs.length - 1, by omega⟩
        obtain ⟨k, hk⟩ := h3
        rw [if_neg hj, dif_neg h1, hk]
        cases b <;> simp [Nat.testBit_succ]

/-- `take` reads its bits in stream order, first bit most significant (R15). -/
theorem getMsbD_takeBits (bs : List Bool) (p n j : Nat) (h : p + n ≤ bs.length) (hj : j < n) :
    (takeBits bs p n).getMsbD j = bs[p + j] := by
  have hl : ((bs.drop p).take n).length = n := by simp; omega
  simp only [takeBits, BitVec.getMsbD, hj, decide_true, Bool.true_and, BitVec.getLsbD_ofNat, testBit_bitsVal, hl]
  have h1 : n - 1 - j < n := by omega
  simp only [h1, dif_pos, decide_true, Bool.true_and]
  have h2 : n - 1 - (n - 1 - j) = j := by omega
  simp [h2]

/-- Two `take`s over lists that agree on the bits read are equal. -/
theorem takeBits_congr (as bs : List Bool) (p q n : Nat) (h : (as.drop p).take n = (bs.drop q).take n) :
    takeBits as p n = takeBits bs q n := by
  simp [takeBits, h]

theorem takeBits_drop (bs : List Bool) (k p n : Nat) : takeBits (bs.drop k) p n = takeBits bs (k + p) n := by
  simp [takeBits, List.drop_drop]

theorem takeBits_append_left (as bs : List Bool) (p n : Nat) (h : p + n ≤ as.length) :
    takeBits (as ++ bs) p n = takeBits as p n := by
  apply takeBits_congr
  rw [List.drop_append_of_le_length (by omega), List.take_append_of_le_length (by simp; omega)]

theorem takeBits_append_right (as bs : List Bool) (p n : Nat) :
    takeBits (as ++ bs) (as.length + p) n = takeBits bs p n := by
  apply takeBits_congr
  simp

theorem bitsVal_bitsOf (n : Nat) (v : BitVec n) : bitsVal (bitsOf n v) = v.toNat := by
  apply Nat.eq_of_testBit_eq
  intro j
  rw [testBit_bitsVal]
  by_cases hj : j < n
  · have : n - 1 - (n - 1 - j) = j := by omega
    simp [hj, BitVec.getMsbD, BitVec.getLsbD, this]
    omega
  · simp only [length_bitsOf, hj, dif_neg, not_false_eq_true]
    exact (Nat.testBit_lt_two_pow (Nat.lt_of_lt_of_le v.isLt (Nat.pow_le_pow_right (by omega) (by omega)))).symm

/-- `take` of the bits just appended gives the value appended: write then read (R15, R130). -/
theorem takeBits_append_bitsOf (as : List Bool) (n : Nat) (v : BitVec n) (rest : List Bool) :
    takeBits (as ++ (bitsOf n v ++ rest)) as.length n = v := by
  have h := takeBits_append_right as (bitsOf n v ++ rest) 0 n
  rw [Nat.add_zero] at h
  rw [h, takeBits_append_left _ _ _ _ (by simp)]
  apply BitVec.eq_of_toNat_eq
  have hl : (bitsOf n v).take n = bitsOf n v := List.take_of_length_le (by simp)
  simp [takeBits, hl, bitsVal_bitsOf]

/-- A byte with pad padding bits carries 8 - pad data bits (R62). -/
@[simp] theorem length_dataBits (byte : Byte) (pad : BitVec 3) : (dataBits byte pad).length = 8 - pad.toNat := by
  simp [dataBits]

theorem getElem_dataBits (byte : Byte) (pad : BitVec 3) (j : Nat) (h : j < (dataBits byte pad).length) :
    (dataBits byte pad)[j] = byte.getMsbD j := by simp [dataBits]

@[simp] theorem strip_nil (usepad : Bool) : strip [] usepad = [] := rfl

@[simp] theorem strip_cons (e : SBEntry) (sb : List SBEntry) (usepad : Bool) :
    strip (e :: sb) usepad = dataBits e.byte (if usepad then e.pad else 0) ++ strip sb usepad := by simp [strip]

@[simp] theorem strip_append (as bs : List SBEntry) (usepad : Bool) :
    strip (as ++ bs) usepad = strip as usepad ++ strip bs usepad := by simp [strip]

/-- Without padding every byte gives 8 bits (R62). -/
theorem length_strip_raw (sb : List SBEntry) : (strip sb false).length = 8 * sb.length := by
  induction sb with
  | nil => simp
  | cons e sb ih => simp [ih]; omega

/-- With padding the length is the sum of the data bit counts (R62). -/
theorem length_strip_padded (sb : List SBEntry) :
    (strip sb true).length = (sb.map (fun e => 8 - e.pad.toNat)).sum := by
  induction sb with
  | nil => simp
  | cons e sb ih => simp [ih]

theorem length_strip_le (sb : List SBEntry) (usepad : Bool) : (strip sb usepad).length ≤ 8 * sb.length := by
  induction sb with
  | nil => simp
  | cons e sb ih => simp; omega

@[simp] theorem length_extStream (carry : BitVec 2) (bs : List Bool) : (extStream carry bs).length = bs.length + 2 := by
  simp [extStream]; omega

/-- The two bits before position 0 are the carried ones (R66). -/
@[simp] theorem prev2At_zero (carry : BitVec 2) (bs : List Bool) : prev2At carry bs 0 = carry := by
  have h := takeBits_append_bitsOf [] 2 carry bs
  simpa [prev2At, extStream] using h

/-- From position 2 on the two bits before a position are stream bits (R66). -/
theorem prev2At_add_two (carry : BitVec 2) (bs : List Bool) (p : Nat) : prev2At carry bs (p + 2) = takeBits bs p 2 := by
  have h := takeBits_append_right (bitsOf 2 carry) bs p 2
  rw [length_bitsOf, Nat.add_comm] at h
  exact h

/-- Removing bits from the front keeps the two bits before every position that stays, when the carry is kept up to date
(R132). -/
theorem prev2At_drop (carry : BitVec 2) (bs : List Bool) (k p : Nat) (hk : k ≤ bs.length) :
    prev2At (prev2At carry bs k) (bs.drop k) p = prev2At carry bs (k + p) := by
  apply takeBits_congr
  have hlen : (((extStream carry bs).drop k).take 2).length = 2 := by simp; omega
  have hbits : bitsOf 2 (prev2At carry bs k) = ((extStream carry bs).drop k).take 2 := by
    apply List.ext_getElem (by rw [hlen, length_bitsOf])
    intro j h1 h2
    rw [getElem_bitsOf, prev2At, getMsbD_takeBits _ _ _ _ (by simp; omega) (by simpa using h1)]
    simp
  have hdrop : bs.drop k = (extStream carry bs).drop (k + 2) := by
    have hcarry : (bitsOf 2 carry).drop 2 = [] := List.drop_of_length_le (by simp)
    rw [extStream, Nat.add_comm k 2, ← List.drop_drop, List.drop_append_of_le_length (by simp), hcarry,
      List.nil_append]
  have hjoin : extStream (prev2At carry bs k) (bs.drop k) = (extStream carry bs).drop k := by
    rw [extStream, hbits, hdrop, ← List.drop_drop, List.take_append_drop]
  rw [hjoin, List.drop_drop]

end Sys2Proof.Machine
end

