-- ==== Sys2Proof/Laws/Decode.lean ====
section
/-! SUPPORT. The laws of the encoding formats (30_encoding R91, R92): which field each format puts where, and when a row
selects a CMD. -/

namespace Sys2Proof

/-- The bits of a CMD put together from an opcode and 24 low bits. -/
theorem getLsbD_cmd (opc : BitVec 8) (low : BitVec 24) (i : Nat) :
    @BitVec.getLsbD 32 (opc ++ low) i = if i < 24 then low.getLsbD i else opc.getLsbD (i - 24) := by
  rw [show @BitVec.getLsbD 32 (opc ++ low) i = @BitVec.getLsbD (8 + 24) (opc ++ low) i from rfl, BitVec.getLsbD_append]

/-- The bits of the 24 low bits of format B. -/
theorem getLsbD_lowB (p : BitVec 3) (b : Byte) (i : Nat) :
    @BitVec.getLsbD 24 (0#13 ++ p ++ b) i = if i < 8 then b.getLsbD i else p.getLsbD (i - 8) := by
  rw [show @BitVec.getLsbD 24 (0#13 ++ p ++ b) i = @BitVec.getLsbD (13 + 3 + 8) (0#13 ++ p ++ b) i from rfl,
    BitVec.getLsbD_append, BitVec.getLsbD_append]
  by_cases h : i < 8
  · simp [h]
  · by_cases h3 : i - 8 < 3
    · simp [h, h3]
    · simp [h, h3, BitVec.getLsbD_of_ge p (i - 8) (by omega)]

/-- The bits of the 24 low bits of format R. -/
theorem getLsbD_lowR (reg : BitVec 5) (i : Nat) : @BitVec.getLsbD 24 (0#19 ++ reg) i = reg.getLsbD i := by
  rw [show @BitVec.getLsbD 24 (0#19 ++ reg) i = @BitVec.getLsbD (19 + 5) (0#19 ++ reg) i from rfl, BitVec.getLsbD_append]
  by_cases h : i < 5
  · simp [h]
  · simp [h, BitVec.getLsbD_of_ge reg i (by omega)]

/-- The bits of the 24 low bits of format C. -/
theorem getLsbD_lowC (t : BitVec 4) (p : Bool) (i : Nat) :
    @BitVec.getLsbD 24 (0#19 ++ t ++ BitVec.ofBool p) i = if i < 1 then p else t.getLsbD (i - 1) := by
  rw [show @BitVec.getLsbD 24 (0#19 ++ t ++ BitVec.ofBool p) i =
      @BitVec.getLsbD (19 + 4 + 1) (0#19 ++ t ++ BitVec.ofBool p) i from rfl, BitVec.getLsbD_append, BitVec.getLsbD_append]
  by_cases h : i = 0
  · simp [h]
  · by_cases h4 : i - 1 < 4
    · simp [h, h4]
    · simp [h, h4, BitVec.getLsbD_of_ge t (i - 1) (by omega)]

/-- The bits of the 24 low bits of format O. -/
theorem getLsbD_lowO (u : Bool) (i : Nat) :
    @BitVec.getLsbD 24 (0#23 ++ BitVec.ofBool u) i = (decide (i = 0) && u) := by
  rw [show @BitVec.getLsbD 24 (0#23 ++ BitVec.ofBool u) i = @BitVec.getLsbD (23 + 1) (0#23 ++ BitVec.ofBool u) i from rfl,
    BitVec.getLsbD_append]
  by_cases h : i = 0 <;> simp [h]

/-- A CMD is its opcode byte over its 24 low bits. -/
theorem cmd_split (cmd : Word) : cmd = opcodeOf cmd ++ fieldN cmd := by
  apply BitVec.eq_of_getLsbD_eq
  intro i hi
  rw [getLsbD_cmd]
  by_cases h : i < 24
  · simp [h, fieldN]
  · have h2 : i - 24 < 8 := by omega
    have h3 : 24 + (i - 24) = i := by omega
    simp [h, opcodeOf, h2, h3]

theorem opcodeOf_append (opc : BitVec 8) (low : BitVec 24) : opcodeOf (opc ++ low) = opc := by
  apply BitVec.eq_of_getLsbD_eq
  intro i hi
  simp [opcodeOf, getLsbD_cmd, hi]

theorem fieldN_append (opc : BitVec 8) (low : BitVec 24) : fieldN (opc ++ low) = low := by
  apply BitVec.eq_of_getLsbD_eq
  intro i hi
  simp [fieldN, getLsbD_cmd, hi]

/-- A row whose mask holds all of the opcode selects a CMD exactly when the opcodes agree and the masked low bits are 0
(R92). -/
theorem selects_iff (row : Row) (o opc : BitVec 8) (ml low : BitVec 24) (hmask : row.mask = 0xFF#8 ++ ml)
    (hmatch : row.matchBits = o ++ 0#24) :
    row.selects (opc ++ low) = (decide (opc = o) && decide (low &&& ml = 0#24)) := by
  have hall : ∀ x : BitVec 8, x &&& 0xFF#8 = x := by decide
  have hand : (opc ++ low : Word) &&& (0xFF#8 ++ ml) = opc ++ (low &&& ml) := by
    refine BitVec.and_append.trans ?_
    rw [hall]
  have hiff : ((opc ++ (low &&& ml) : Word) = o ++ 0#24) ↔ (opc = o ∧ low &&& ml = 0#24) := by
    constructor
    · intro h
      have h1 := congrArg opcodeOf h
      have h2 := congrArg fieldN h
      rw [opcodeOf_append, opcodeOf_append] at h1
      rw [fieldN_append, fieldN_append] at h2
      exact ⟨h1, h2⟩
    · rintro ⟨h1, h2⟩
      rw [h1, h2]
  have hrow : row.selects (opc ++ low) = decide ((opc ++ (low &&& ml) : Word) = o ++ 0#24) := by
    rw [← hand, Row.selects, hmask, hmatch]
    rfl
  rw [hrow, decide_eq_decide.mpr hiff, Bool.decide_and]

/-- Format Z holds its opcode and nothing else (R91). -/
@[simp] theorem opcodeOf_formatZ (opc : BitVec 8) : opcodeOf (formatZ opc) = opc := opcodeOf_append opc 0#24

@[simp] theorem opcodeOf_formatN (opc : BitVec 8) (n : BitVec 24) : opcodeOf (formatN opc n) = opc := opcodeOf_append opc n

@[simp] theorem fieldN_formatN (opc : BitVec 8) (n : BitVec 24) : fieldN (formatN opc n) = n := fieldN_append opc n

@[simp] theorem opcodeOf_formatB (opc : BitVec 8) (b : Byte) (p : BitVec 3) : opcodeOf (formatB opc b p) = opc :=
  opcodeOf_append opc (0#13 ++ p ++ b)

@[simp] theorem opcodeOf_formatR (opc : BitVec 8) (reg : BitVec 5) : opcodeOf (formatR opc reg) = opc :=
  opcodeOf_append opc (0#19 ++ reg)

@[simp] theorem opcodeOf_formatC (opc : BitVec 8) (t : BitVec 4) (p : Bool) : opcodeOf (formatC opc t p) = opc :=
  opcodeOf_append opc (0#19 ++ t ++ BitVec.ofBool p)

@[simp] theorem opcodeOf_formatO (opc : BitVec 8) (u : Bool) : opcodeOf (formatO opc u) = opc :=
  opcodeOf_append opc (0#23 ++ BitVec.ofBool u)

@[simp] theorem fieldByte_formatB (opc : BitVec 8) (b : Byte) (p : BitVec 3) : fieldByte (formatB opc b p) = b := by
  apply BitVec.eq_of_getLsbD_eq
  intro i hi
  have h : i < 24 := by omega
  rw [fieldByte, BitVec.getLsbD_extractLsb', formatB, Nat.zero_add, getLsbD_cmd, if_pos h, getLsbD_lowB, if_pos hi]
  simp [hi]

@[simp] theorem fieldPad_formatB (opc : BitVec 8) (b : Byte) (p : BitVec 3) : fieldPad (formatB opc b p) = p := by
  apply BitVec.eq_of_getLsbD_eq
  intro i hi
  have h : 8 + i < 24 := by omega
  rw [fieldPad, BitVec.getLsbD_extractLsb', formatB, getLsbD_cmd, if_pos h, getLsbD_lowB, if_neg (by omega),
    Nat.add_sub_cancel_left]
  simp [hi]

@[simp] theorem fieldReg_formatR (opc : BitVec 8) (reg : BitVec 5) : fieldReg (formatR opc reg) = reg := by
  apply BitVec.eq_of_getLsbD_eq
  intro i hi
  have h : i < 24 := by omega
  rw [fieldReg, BitVec.getLsbD_extractLsb', formatR, Nat.zero_add, getLsbD_cmd, if_pos h, getLsbD_lowR]
  simp [hi]

@[simp] theorem fieldThresh_formatC (opc : BitVec 8) (t : BitVec 4) (p : Bool) : fieldThresh (formatC opc t p) = t := by
  apply BitVec.eq_of_getLsbD_eq
  intro i hi
  have h : 1 + i < 24 := by omega
  rw [fieldThresh, BitVec.getLsbD_extractLsb', formatC, getLsbD_cmd, if_pos h, getLsbD_lowC, if_neg (by omega),
    Nat.add_sub_cancel_left]
  simp [hi]

@[simp] theorem fieldBit0_formatC (opc : BitVec 8) (t : BitVec 4) (p : Bool) : fieldBit0 (formatC opc t p) = p := by
  rw [fieldBit0, formatC, getLsbD_cmd, if_pos (by omega), getLsbD_lowC, if_pos (by omega)]

@[simp] theorem fieldBit0_formatO (opc : BitVec 8) (u : Bool) : fieldBit0 (formatO opc u) = u := by
  rw [fieldBit0, formatO, getLsbD_cmd, if_pos (by omega), getLsbD_lowO]
  simp

end Sys2Proof
end

