-- ==== Sys2Proof/Laws/State.lean ====
section
/-! SUPPORT. One lemma per field per named update of State, so that no later proof unfolds a record update.
`answer` writes the response only, each cursor operation the cursor's fields only, a scan the fields R181 names. -/

namespace Sys2Proof.Machine

section AnswerLaws

@[simp] theorem State.answer_built (s : State) (st : Status) (res : Word) : (s.answer st res).built = s.built := rfl
@[simp] theorem State.answer_parityEn (s : State) (st : Status) (res : Word) : (s.answer st res).parityEn = s.parityEn := rfl
@[simp] theorem State.answer_thresh (s : State) (st : Status) (res : Word) : (s.answer st res).thresh = s.thresh := rfl
@[simp] theorem State.answer_cmode (s : State) (st : Status) (res : Word) : (s.answer st res).cmode = s.cmode := rfl
@[simp] theorem State.answer_sb (s : State) (st : Status) (res : Word) : (s.answer st res).sb = s.sb := rfl
@[simp] theorem State.answer_stream (s : State) (st : Status) (res : Word) : (s.answer st res).stream = s.stream := rfl
@[simp] theorem State.answer_pos (s : State) (st : Status) (res : Word) : (s.answer st res).pos = s.pos := rfl
@[simp] theorem State.answer_prev2 (s : State) (st : Status) (res : Word) : (s.answer st res).prev2 = s.prev2 := rfl
@[simp] theorem State.answer_fsm (s : State) (st : Status) (res : Word) : (s.answer st res).fsm = s.fsm := rfl
@[simp] theorem State.answer_consumed (s : State) (st : Status) (res : Word) : (s.answer st res).consumed = s.consumed := rfl
@[simp] theorem State.answer_unsupSeen (s : State) (st : Status) (res : Word) : (s.answer st res).unsupSeen = s.unsupSeen := rfl
@[simp] theorem State.answer_parrejSeen (s : State) (st : Status) (res : Word) : (s.answer st res).parrejSeen = s.parrejSeen := rfl
@[simp] theorem State.answer_frameValid (s : State) (st : Status) (res : Word) : (s.answer st res).frameValid = s.frameValid := rfl
@[simp] theorem State.answer_vflags (s : State) (st : Status) (res : Word) : (s.answer st res).vflags = s.vflags := rfl
@[simp] theorem State.answer_tlm (s : State) (st : Status) (res : Word) : (s.answer st res).tlm = s.tlm := rfl
@[simp] theorem State.answer_how (s : State) (st : Status) (res : Word) : (s.answer st res).how = s.how := rfl
@[simp] theorem State.answer_fld (s : State) (st : Status) (res : Word) : (s.answer st res).fld = s.fld := rfl
@[simp] theorem State.answer_requests (s : State) (st : Status) (res : Word) : (s.answer st res).requests = s.requests := rfl
@[simp] theorem State.answer_response (s : State) (st : Status) (res : Word) : (s.answer st res).response = some ⟨st, res⟩ := rfl

end AnswerLaws

section OfferLaws

@[simp] theorem State.offer_built (s : State) (r : Request) : (s.offer r).built = s.built := rfl
@[simp] theorem State.offer_parityEn (s : State) (r : Request) : (s.offer r).parityEn = s.parityEn := rfl
@[simp] theorem State.offer_thresh (s : State) (r : Request) : (s.offer r).thresh = s.thresh := rfl
@[simp] theorem State.offer_cmode (s : State) (r : Request) : (s.offer r).cmode = s.cmode := rfl
@[simp] theorem State.offer_sb (s : State) (r : Request) : (s.offer r).sb = s.sb := rfl
@[simp] theorem State.offer_stream (s : State) (r : Request) : (s.offer r).stream = s.stream := rfl
@[simp] theorem State.offer_pos (s : State) (r : Request) : (s.offer r).pos = s.pos := rfl
@[simp] theorem State.offer_prev2 (s : State) (r : Request) : (s.offer r).prev2 = s.prev2 := rfl
@[simp] theorem State.offer_fsm (s : State) (r : Request) : (s.offer r).fsm = s.fsm := rfl
@[simp] theorem State.offer_consumed (s : State) (r : Request) : (s.offer r).consumed = s.consumed := rfl
@[simp] theorem State.offer_unsupSeen (s : State) (r : Request) : (s.offer r).unsupSeen = s.unsupSeen := rfl
@[simp] theorem State.offer_parrejSeen (s : State) (r : Request) : (s.offer r).parrejSeen = s.parrejSeen := rfl
@[simp] theorem State.offer_frameValid (s : State) (r : Request) : (s.offer r).frameValid = s.frameValid := rfl
@[simp] theorem State.offer_vflags (s : State) (r : Request) : (s.offer r).vflags = s.vflags := rfl
@[simp] theorem State.offer_tlm (s : State) (r : Request) : (s.offer r).tlm = s.tlm := rfl
@[simp] theorem State.offer_how (s : State) (r : Request) : (s.offer r).how = s.how := rfl
@[simp] theorem State.offer_fld (s : State) (r : Request) : (s.offer r).fld = s.fld := rfl
@[simp] theorem State.offer_requests (s : State) (r : Request) : (s.offer r).requests = r :: s.requests := rfl
@[simp] theorem State.offer_response (s : State) (r : Request) : (s.offer r).response = s.response := rfl

end OfferLaws

section BuildLaws

@[simp] theorem State.build_built (s : State) (p : Bool) (t : BitVec 4) : (s.build p t).built = true := rfl
@[simp] theorem State.build_parityEn (s : State) (p : Bool) (t : BitVec 4) : (s.build p t).parityEn = p := rfl
@[simp] theorem State.build_thresh (s : State) (p : Bool) (t : BitVec 4) : (s.build p t).thresh = t := rfl
@[simp] theorem State.build_cmode (s : State) (p : Bool) (t : BitVec 4) : (s.build p t).cmode = .closed := rfl
@[simp] theorem State.build_sb (s : State) (p : Bool) (t : BitVec 4) : (s.build p t).sb = [] := rfl
@[simp] theorem State.build_stream (s : State) (p : Bool) (t : BitVec 4) : (s.build p t).stream = [] := rfl
@[simp] theorem State.build_pos (s : State) (p : Bool) (t : BitVec 4) : (s.build p t).pos = 0 := rfl
@[simp] theorem State.build_prev2 (s : State) (p : Bool) (t : BitVec 4) : (s.build p t).prev2 = 0 := rfl
@[simp] theorem State.build_fsm (s : State) (p : Bool) (t : BitVec 4) : (s.build p t).fsm = .searching := rfl
@[simp] theorem State.build_consumed (s : State) (p : Bool) (t : BitVec 4) : (s.build p t).consumed = 0 := rfl
@[simp] theorem State.build_unsupSeen (s : State) (p : Bool) (t : BitVec 4) : (s.build p t).unsupSeen = false := rfl
@[simp] theorem State.build_parrejSeen (s : State) (p : Bool) (t : BitVec 4) : (s.build p t).parrejSeen = false := rfl
@[simp] theorem State.build_frameValid (s : State) (p : Bool) (t : BitVec 4) : (s.build p t).frameValid = false := rfl
@[simp] theorem State.build_vflags (s : State) (p : Bool) (t : BitVec 4) : (s.build p t).vflags = 0 := rfl
@[simp] theorem State.build_tlm (s : State) (p : Bool) (t : BitVec 4) : (s.build p t).tlm = 0 := rfl
@[simp] theorem State.build_how (s : State) (p : Bool) (t : BitVec 4) : (s.build p t).how = 0 := rfl
@[simp] theorem State.build_fld (s : State) (p : Bool) (t : BitVec 4) : (s.build p t).fld = Vector.replicate 11 0 := rfl
@[simp] theorem State.build_requests (s : State) (p : Bool) (t : BitVec 4) : (s.build p t).requests = s.requests := rfl
@[simp] theorem State.build_response (s : State) (p : Bool) (t : BitVec 4) : (s.build p t).response = s.response := rfl

end BuildLaws

section ClearStagingLaws

@[simp] theorem State.clearStaging_built (s : State) : s.clearStaging.built = s.built := rfl
@[simp] theorem State.clearStaging_parityEn (s : State) : s.clearStaging.parityEn = s.parityEn := rfl
@[simp] theorem State.clearStaging_thresh (s : State) : s.clearStaging.thresh = s.thresh := rfl
@[simp] theorem State.clearStaging_cmode (s : State) : s.clearStaging.cmode = s.cmode := rfl
@[simp] theorem State.clearStaging_sb (s : State) : s.clearStaging.sb = [] := rfl
@[simp] theorem State.clearStaging_stream (s : State) : s.clearStaging.stream = s.stream := rfl
@[simp] theorem State.clearStaging_pos (s : State) : s.clearStaging.pos = s.pos := rfl
@[simp] theorem State.clearStaging_prev2 (s : State) : s.clearStaging.prev2 = s.prev2 := rfl
@[simp] theorem State.clearStaging_fsm (s : State) : s.clearStaging.fsm = s.fsm := rfl
@[simp] theorem State.clearStaging_consumed (s : State) : s.clearStaging.consumed = s.consumed := rfl
@[simp] theorem State.clearStaging_unsupSeen (s : State) : s.clearStaging.unsupSeen = s.unsupSeen := rfl
@[simp] theorem State.clearStaging_parrejSeen (s : State) : s.clearStaging.parrejSeen = s.parrejSeen := rfl
@[simp] theorem State.clearStaging_frameValid (s : State) : s.clearStaging.frameValid = s.frameValid := rfl
@[simp] theorem State.clearStaging_vflags (s : State) : s.clearStaging.vflags = s.vflags := rfl
@[simp] theorem State.clearStaging_tlm (s : State) : s.clearStaging.tlm = s.tlm := rfl
@[simp] theorem State.clearStaging_how (s : State) : s.clearStaging.how = s.how := rfl
@[simp] theorem State.clearStaging_fld (s : State) : s.clearStaging.fld = s.fld := rfl
@[simp] theorem State.clearStaging_requests (s : State) : s.clearStaging.requests = s.requests := rfl
@[simp] theorem State.clearStaging_response (s : State) : s.clearStaging.response = s.response := rfl

end ClearStagingLaws

section PushStagingLaws

@[simp] theorem State.pushStaging_built (s : State) (b : Byte) (p : BitVec 3) : (s.pushStaging b p).built = s.built := rfl
@[simp] theorem State.pushStaging_parityEn (s : State) (b : Byte) (p : BitVec 3) : (s.pushStaging b p).parityEn = s.parityEn := rfl
@[simp] theorem State.pushStaging_thresh (s : State) (b : Byte) (p : BitVec 3) : (s.pushStaging b p).thresh = s.thresh := rfl
@[simp] theorem State.pushStaging_cmode (s : State) (b : Byte) (p : BitVec 3) : (s.pushStaging b p).cmode = s.cmode := rfl
@[simp] theorem State.pushStaging_sb (s : State) (b : Byte) (p : BitVec 3) : (s.pushStaging b p).sb = s.sb ++ [⟨b, p⟩] := rfl
@[simp] theorem State.pushStaging_stream (s : State) (b : Byte) (p : BitVec 3) : (s.pushStaging b p).stream = s.stream := rfl
@[simp] theorem State.pushStaging_pos (s : State) (b : Byte) (p : BitVec 3) : (s.pushStaging b p).pos = s.pos := rfl
@[simp] theorem State.pushStaging_prev2 (s : State) (b : Byte) (p : BitVec 3) : (s.pushStaging b p).prev2 = s.prev2 := rfl
@[simp] theorem State.pushStaging_fsm (s : State) (b : Byte) (p : BitVec 3) : (s.pushStaging b p).fsm = s.fsm := rfl
@[simp] theorem State.pushStaging_consumed (s : State) (b : Byte) (p : BitVec 3) : (s.pushStaging b p).consumed = s.consumed := rfl
@[simp] theorem State.pushStaging_unsupSeen (s : State) (b : Byte) (p : BitVec 3) : (s.pushStaging b p).unsupSeen = s.unsupSeen := rfl
@[simp] theorem State.pushStaging_parrejSeen (s : State) (b : Byte) (p : BitVec 3) : (s.pushStaging b p).parrejSeen = s.parrejSeen := rfl
@[simp] theorem State.pushStaging_frameValid (s : State) (b : Byte) (p : BitVec 3) : (s.pushStaging b p).frameValid = s.frameValid := rfl
@[simp] theorem State.pushStaging_vflags (s : State) (b : Byte) (p : BitVec 3) : (s.pushStaging b p).vflags = s.vflags := rfl
@[simp] theorem State.pushStaging_tlm (s : State) (b : Byte) (p : BitVec 3) : (s.pushStaging b p).tlm = s.tlm := rfl
@[simp] theorem State.pushStaging_how (s : State) (b : Byte) (p : BitVec 3) : (s.pushStaging b p).how = s.how := rfl
@[simp] theorem State.pushStaging_fld (s : State) (b : Byte) (p : BitVec 3) : (s.pushStaging b p).fld = s.fld := rfl
@[simp] theorem State.pushStaging_requests (s : State) (b : Byte) (p : BitVec 3) : (s.pushStaging b p).requests = s.requests := rfl
@[simp] theorem State.pushStaging_response (s : State) (b : Byte) (p : BitVec 3) : (s.pushStaging b p).response = s.response := rfl

end PushStagingLaws

section OpenCursorLaws

@[simp] theorem State.openCursor_built (s : State) (m : CMode) (bits : List Bool) : (s.openCursor m bits).built = s.built := rfl
@[simp] theorem State.openCursor_parityEn (s : State) (m : CMode) (bits : List Bool) : (s.openCursor m bits).parityEn = s.parityEn := rfl
@[simp] theorem State.openCursor_thresh (s : State) (m : CMode) (bits : List Bool) : (s.openCursor m bits).thresh = s.thresh := rfl
@[simp] theorem State.openCursor_cmode (s : State) (m : CMode) (bits : List Bool) : (s.openCursor m bits).cmode = m := rfl
@[simp] theorem State.openCursor_sb (s : State) (m : CMode) (bits : List Bool) : (s.openCursor m bits).sb = s.sb := rfl
@[simp] theorem State.openCursor_stream (s : State) (m : CMode) (bits : List Bool) : (s.openCursor m bits).stream = bits := rfl
@[simp] theorem State.openCursor_pos (s : State) (m : CMode) (bits : List Bool) : (s.openCursor m bits).pos = 0 := rfl
@[simp] theorem State.openCursor_prev2 (s : State) (m : CMode) (bits : List Bool) : (s.openCursor m bits).prev2 = s.prev2 := rfl
@[simp] theorem State.openCursor_fsm (s : State) (m : CMode) (bits : List Bool) : (s.openCursor m bits).fsm = s.fsm := rfl
@[simp] theorem State.openCursor_consumed (s : State) (m : CMode) (bits : List Bool) : (s.openCursor m bits).consumed = s.consumed := rfl
@[simp] theorem State.openCursor_unsupSeen (s : State) (m : CMode) (bits : List Bool) : (s.openCursor m bits).unsupSeen = s.unsupSeen := rfl
@[simp] theorem State.openCursor_parrejSeen (s : State) (m : CMode) (bits : List Bool) : (s.openCursor m bits).parrejSeen = s.parrejSeen := rfl
@[simp] theorem State.openCursor_frameValid (s : State) (m : CMode) (bits : List Bool) : (s.openCursor m bits).frameValid = s.frameValid := rfl
@[simp] theorem State.openCursor_vflags (s : State) (m : CMode) (bits : List Bool) : (s.openCursor m bits).vflags = s.vflags := rfl
@[simp] theorem State.openCursor_tlm (s : State) (m : CMode) (bits : List Bool) : (s.openCursor m bits).tlm = s.tlm := rfl
@[simp] theorem State.openCursor_how (s : State) (m : CMode) (bits : List Bool) : (s.openCursor m bits).how = s.how := rfl
@[simp] theorem State.openCursor_fld (s : State) (m : CMode) (bits : List Bool) : (s.openCursor m bits).fld = s.fld := rfl
@[simp] theorem State.openCursor_requests (s : State) (m : CMode) (bits : List Bool) : (s.openCursor m bits).requests = s.requests := rfl
@[simp] theorem State.openCursor_response (s : State) (m : CMode) (bits : List Bool) : (s.openCursor m bits).response = s.response := rfl

end OpenCursorLaws

section SetPrev2Laws

@[simp] theorem State.setPrev2_built (s : State) (v : BitVec 2) : (s.setPrev2 v).built = s.built := rfl
@[simp] theorem State.setPrev2_parityEn (s : State) (v : BitVec 2) : (s.setPrev2 v).parityEn = s.parityEn := rfl
@[simp] theorem State.setPrev2_thresh (s : State) (v : BitVec 2) : (s.setPrev2 v).thresh = s.thresh := rfl
@[simp] theorem State.setPrev2_cmode (s : State) (v : BitVec 2) : (s.setPrev2 v).cmode = s.cmode := rfl
@[simp] theorem State.setPrev2_sb (s : State) (v : BitVec 2) : (s.setPrev2 v).sb = s.sb := rfl
@[simp] theorem State.setPrev2_stream (s : State) (v : BitVec 2) : (s.setPrev2 v).stream = s.stream := rfl
@[simp] theorem State.setPrev2_pos (s : State) (v : BitVec 2) : (s.setPrev2 v).pos = s.pos := rfl
@[simp] theorem State.setPrev2_prev2 (s : State) (v : BitVec 2) : (s.setPrev2 v).prev2 = v := rfl
@[simp] theorem State.setPrev2_fsm (s : State) (v : BitVec 2) : (s.setPrev2 v).fsm = s.fsm := rfl
@[simp] theorem State.setPrev2_consumed (s : State) (v : BitVec 2) : (s.setPrev2 v).consumed = s.consumed := rfl
@[simp] theorem State.setPrev2_unsupSeen (s : State) (v : BitVec 2) : (s.setPrev2 v).unsupSeen = s.unsupSeen := rfl
@[simp] theorem State.setPrev2_parrejSeen (s : State) (v : BitVec 2) : (s.setPrev2 v).parrejSeen = s.parrejSeen := rfl
@[simp] theorem State.setPrev2_frameValid (s : State) (v : BitVec 2) : (s.setPrev2 v).frameValid = s.frameValid := rfl
@[simp] theorem State.setPrev2_vflags (s : State) (v : BitVec 2) : (s.setPrev2 v).vflags = s.vflags := rfl
@[simp] theorem State.setPrev2_tlm (s : State) (v : BitVec 2) : (s.setPrev2 v).tlm = s.tlm := rfl
@[simp] theorem State.setPrev2_how (s : State) (v : BitVec 2) : (s.setPrev2 v).how = s.how := rfl
@[simp] theorem State.setPrev2_fld (s : State) (v : BitVec 2) : (s.setPrev2 v).fld = s.fld := rfl
@[simp] theorem State.setPrev2_requests (s : State) (v : BitVec 2) : (s.setPrev2 v).requests = s.requests := rfl
@[simp] theorem State.setPrev2_response (s : State) (v : BitVec 2) : (s.setPrev2 v).response = s.response := rfl

end SetPrev2Laws

section AppendBitsLaws

@[simp] theorem State.appendBits_built (s : State) (bits : List Bool) : (s.appendBits bits).built = s.built := rfl
@[simp] theorem State.appendBits_parityEn (s : State) (bits : List Bool) : (s.appendBits bits).parityEn = s.parityEn := rfl
@[simp] theorem State.appendBits_thresh (s : State) (bits : List Bool) : (s.appendBits bits).thresh = s.thresh := rfl
@[simp] theorem State.appendBits_cmode (s : State) (bits : List Bool) : (s.appendBits bits).cmode = s.cmode := rfl
@[simp] theorem State.appendBits_sb (s : State) (bits : List Bool) : (s.appendBits bits).sb = s.sb := rfl
@[simp] theorem State.appendBits_stream (s : State) (bits : List Bool) : (s.appendBits bits).stream = s.stream ++ bits := rfl
@[simp] theorem State.appendBits_pos (s : State) (bits : List Bool) : (s.appendBits bits).pos = s.pos := rfl
@[simp] theorem State.appendBits_prev2 (s : State) (bits : List Bool) : (s.appendBits bits).prev2 = s.prev2 := rfl
@[simp] theorem State.appendBits_fsm (s : State) (bits : List Bool) : (s.appendBits bits).fsm = s.fsm := rfl
@[simp] theorem State.appendBits_consumed (s : State) (bits : List Bool) : (s.appendBits bits).consumed = s.consumed := rfl
@[simp] theorem State.appendBits_unsupSeen (s : State) (bits : List Bool) : (s.appendBits bits).unsupSeen = s.unsupSeen := rfl
@[simp] theorem State.appendBits_parrejSeen (s : State) (bits : List Bool) : (s.appendBits bits).parrejSeen = s.parrejSeen := rfl
@[simp] theorem State.appendBits_frameValid (s : State) (bits : List Bool) : (s.appendBits bits).frameValid = s.frameValid := rfl
@[simp] theorem State.appendBits_vflags (s : State) (bits : List Bool) : (s.appendBits bits).vflags = s.vflags := rfl
@[simp] theorem State.appendBits_tlm (s : State) (bits : List Bool) : (s.appendBits bits).tlm = s.tlm := rfl
@[simp] theorem State.appendBits_how (s : State) (bits : List Bool) : (s.appendBits bits).how = s.how := rfl
@[simp] theorem State.appendBits_fld (s : State) (bits : List Bool) : (s.appendBits bits).fld = s.fld := rfl
@[simp] theorem State.appendBits_requests (s : State) (bits : List Bool) : (s.appendBits bits).requests = s.requests := rfl
@[simp] theorem State.appendBits_response (s : State) (bits : List Bool) : (s.appendBits bits).response = s.response := rfl

end AppendBitsLaws

section SeekLaws

@[simp] theorem State.seek_built (s : State) (p : Nat) : (s.seek p).built = s.built := rfl
@[simp] theorem State.seek_parityEn (s : State) (p : Nat) : (s.seek p).parityEn = s.parityEn := rfl
@[simp] theorem State.seek_thresh (s : State) (p : Nat) : (s.seek p).thresh = s.thresh := rfl
@[simp] theorem State.seek_cmode (s : State) (p : Nat) : (s.seek p).cmode = s.cmode := rfl
@[simp] theorem State.seek_sb (s : State) (p : Nat) : (s.seek p).sb = s.sb := rfl
@[simp] theorem State.seek_stream (s : State) (p : Nat) : (s.seek p).stream = s.stream := rfl
@[simp] theorem State.seek_pos (s : State) (p : Nat) : (s.seek p).pos = p := rfl
@[simp] theorem State.seek_prev2 (s : State) (p : Nat) : (s.seek p).prev2 = s.prev2 := rfl
@[simp] theorem State.seek_fsm (s : State) (p : Nat) : (s.seek p).fsm = s.fsm := rfl
@[simp] theorem State.seek_consumed (s : State) (p : Nat) : (s.seek p).consumed = s.consumed := rfl
@[simp] theorem State.seek_unsupSeen (s : State) (p : Nat) : (s.seek p).unsupSeen = s.unsupSeen := rfl
@[simp] theorem State.seek_parrejSeen (s : State) (p : Nat) : (s.seek p).parrejSeen = s.parrejSeen := rfl
@[simp] theorem State.seek_frameValid (s : State) (p : Nat) : (s.seek p).frameValid = s.frameValid := rfl
@[simp] theorem State.seek_vflags (s : State) (p : Nat) : (s.seek p).vflags = s.vflags := rfl
@[simp] theorem State.seek_tlm (s : State) (p : Nat) : (s.seek p).tlm = s.tlm := rfl
@[simp] theorem State.seek_how (s : State) (p : Nat) : (s.seek p).how = s.how := rfl
@[simp] theorem State.seek_fld (s : State) (p : Nat) : (s.seek p).fld = s.fld := rfl
@[simp] theorem State.seek_requests (s : State) (p : Nat) : (s.seek p).requests = s.requests := rfl
@[simp] theorem State.seek_response (s : State) (p : Nat) : (s.seek p).response = s.response := rfl

end SeekLaws

section SeekEndLaws

@[simp] theorem State.seekEnd_built (s : State) : s.seekEnd.built = s.built := rfl
@[simp] theorem State.seekEnd_parityEn (s : State) : s.seekEnd.parityEn = s.parityEn := rfl
@[simp] theorem State.seekEnd_thresh (s : State) : s.seekEnd.thresh = s.thresh := rfl
@[simp] theorem State.seekEnd_cmode (s : State) : s.seekEnd.cmode = s.cmode := rfl
@[simp] theorem State.seekEnd_sb (s : State) : s.seekEnd.sb = s.sb := rfl
@[simp] theorem State.seekEnd_stream (s : State) : s.seekEnd.stream = s.stream := rfl
@[simp] theorem State.seekEnd_pos (s : State) : s.seekEnd.pos = s.stream.length := rfl
@[simp] theorem State.seekEnd_prev2 (s : State) : s.seekEnd.prev2 = s.prev2 := rfl
@[simp] theorem State.seekEnd_fsm (s : State) : s.seekEnd.fsm = s.fsm := rfl
@[simp] theorem State.seekEnd_consumed (s : State) : s.seekEnd.consumed = s.consumed := rfl
@[simp] theorem State.seekEnd_unsupSeen (s : State) : s.seekEnd.unsupSeen = s.unsupSeen := rfl
@[simp] theorem State.seekEnd_parrejSeen (s : State) : s.seekEnd.parrejSeen = s.parrejSeen := rfl
@[simp] theorem State.seekEnd_frameValid (s : State) : s.seekEnd.frameValid = s.frameValid := rfl
@[simp] theorem State.seekEnd_vflags (s : State) : s.seekEnd.vflags = s.vflags := rfl
@[simp] theorem State.seekEnd_tlm (s : State) : s.seekEnd.tlm = s.tlm := rfl
@[simp] theorem State.seekEnd_how (s : State) : s.seekEnd.how = s.how := rfl
@[simp] theorem State.seekEnd_fld (s : State) : s.seekEnd.fld = s.fld := rfl
@[simp] theorem State.seekEnd_requests (s : State) : s.seekEnd.requests = s.requests := rfl
@[simp] theorem State.seekEnd_response (s : State) : s.seekEnd.response = s.response := rfl

end SeekEndLaws

section DropConsumedLaws

@[simp] theorem State.dropConsumed_built (s : State) : s.dropConsumed.built = s.built := rfl
@[simp] theorem State.dropConsumed_parityEn (s : State) : s.dropConsumed.parityEn = s.parityEn := rfl
@[simp] theorem State.dropConsumed_thresh (s : State) : s.dropConsumed.thresh = s.thresh := rfl
@[simp] theorem State.dropConsumed_cmode (s : State) : s.dropConsumed.cmode = s.cmode := rfl
@[simp] theorem State.dropConsumed_sb (s : State) : s.dropConsumed.sb = s.sb := rfl
@[simp] theorem State.dropConsumed_stream (s : State) : s.dropConsumed.stream = s.stream.drop s.pos := rfl
@[simp] theorem State.dropConsumed_pos (s : State) : s.dropConsumed.pos = 0 := rfl
@[simp] theorem State.dropConsumed_prev2 (s : State) : s.dropConsumed.prev2 = s.prev2AtPos := rfl
@[simp] theorem State.dropConsumed_fsm (s : State) : s.dropConsumed.fsm = s.fsm := rfl
@[simp] theorem State.dropConsumed_consumed (s : State) : s.dropConsumed.consumed = s.consumed := rfl
@[simp] theorem State.dropConsumed_unsupSeen (s : State) : s.dropConsumed.unsupSeen = s.unsupSeen := rfl
@[simp] theorem State.dropConsumed_parrejSeen (s : State) : s.dropConsumed.parrejSeen = s.parrejSeen := rfl
@[simp] theorem State.dropConsumed_frameValid (s : State) : s.dropConsumed.frameValid = s.frameValid := rfl
@[simp] theorem State.dropConsumed_vflags (s : State) : s.dropConsumed.vflags = s.vflags := rfl
@[simp] theorem State.dropConsumed_tlm (s : State) : s.dropConsumed.tlm = s.tlm := rfl
@[simp] theorem State.dropConsumed_how (s : State) : s.dropConsumed.how = s.how := rfl
@[simp] theorem State.dropConsumed_fld (s : State) : s.dropConsumed.fld = s.fld := rfl
@[simp] theorem State.dropConsumed_requests (s : State) : s.dropConsumed.requests = s.requests := rfl
@[simp] theorem State.dropConsumed_response (s : State) : s.dropConsumed.response = s.response := rfl

end DropConsumedLaws

section StoreFrameLaws

@[simp] theorem State.storeFrame_built (s : State) (c : Candidate) : (s.storeFrame c).built = s.built := rfl
@[simp] theorem State.storeFrame_parityEn (s : State) (c : Candidate) : (s.storeFrame c).parityEn = s.parityEn := rfl
@[simp] theorem State.storeFrame_thresh (s : State) (c : Candidate) : (s.storeFrame c).thresh = s.thresh := rfl
@[simp] theorem State.storeFrame_cmode (s : State) (c : Candidate) : (s.storeFrame c).cmode = s.cmode := rfl
@[simp] theorem State.storeFrame_sb (s : State) (c : Candidate) : (s.storeFrame c).sb = s.sb := rfl
@[simp] theorem State.storeFrame_stream (s : State) (c : Candidate) : (s.storeFrame c).stream = s.stream := rfl
@[simp] theorem State.storeFrame_pos (s : State) (c : Candidate) : (s.storeFrame c).pos = s.pos := rfl
@[simp] theorem State.storeFrame_prev2 (s : State) (c : Candidate) : (s.storeFrame c).prev2 = s.prev2 := rfl
@[simp] theorem State.storeFrame_fsm (s : State) (c : Candidate) : (s.storeFrame c).fsm = s.fsm := rfl
@[simp] theorem State.storeFrame_consumed (s : State) (c : Candidate) : (s.storeFrame c).consumed = s.consumed := rfl
@[simp] theorem State.storeFrame_unsupSeen (s : State) (c : Candidate) : (s.storeFrame c).unsupSeen = s.unsupSeen := rfl
@[simp] theorem State.storeFrame_parrejSeen (s : State) (c : Candidate) : (s.storeFrame c).parrejSeen = s.parrejSeen := rfl
@[simp] theorem State.storeFrame_frameValid (s : State) (c : Candidate) : (s.storeFrame c).frameValid = true := rfl
@[simp] theorem State.storeFrame_vflags (s : State) (c : Candidate) : (s.storeFrame c).vflags = c.vflags := rfl
@[simp] theorem State.storeFrame_tlm (s : State) (c : Candidate) : (s.storeFrame c).tlm = c.tlm := rfl
@[simp] theorem State.storeFrame_how (s : State) (c : Candidate) : (s.storeFrame c).how = c.how := rfl
@[simp] theorem State.storeFrame_fld (s : State) (c : Candidate) : (s.storeFrame c).fld = c.fld := rfl
@[simp] theorem State.storeFrame_requests (s : State) (c : Candidate) : (s.storeFrame c).requests = s.requests := rfl
@[simp] theorem State.storeFrame_response (s : State) (c : Candidate) : (s.storeFrame c).response = s.response := rfl

end StoreFrameLaws

section EncodeFrameLaws

@[simp] theorem State.encodeFrame_built (s : State) (m : List FieldEntry) : (s.encodeFrame m).built = s.built := rfl
@[simp] theorem State.encodeFrame_parityEn (s : State) (m : List FieldEntry) : (s.encodeFrame m).parityEn = s.parityEn := rfl
@[simp] theorem State.encodeFrame_thresh (s : State) (m : List FieldEntry) : (s.encodeFrame m).thresh = s.thresh := rfl
@[simp] theorem State.encodeFrame_cmode (s : State) (m : List FieldEntry) : (s.encodeFrame m).cmode = s.cmode := rfl
@[simp] theorem State.encodeFrame_sb (s : State) (m : List FieldEntry) : (s.encodeFrame m).sb = s.sb := rfl
@[simp] theorem State.encodeFrame_stream (s : State) (m : List FieldEntry) : (s.encodeFrame m).stream = appendSubframe s.carryBits (frameWord m s) s.stream := rfl
@[simp] theorem State.encodeFrame_pos (s : State) (m : List FieldEntry) : (s.encodeFrame m).pos = (appendSubframe s.carryBits (frameWord m s) s.stream).length := rfl
@[simp] theorem State.encodeFrame_prev2 (s : State) (m : List FieldEntry) : (s.encodeFrame m).prev2 = s.prev2 := rfl
@[simp] theorem State.encodeFrame_fsm (s : State) (m : List FieldEntry) : (s.encodeFrame m).fsm = s.fsm := rfl
@[simp] theorem State.encodeFrame_consumed (s : State) (m : List FieldEntry) : (s.encodeFrame m).consumed = s.consumed := rfl
@[simp] theorem State.encodeFrame_unsupSeen (s : State) (m : List FieldEntry) : (s.encodeFrame m).unsupSeen = s.unsupSeen := rfl
@[simp] theorem State.encodeFrame_parrejSeen (s : State) (m : List FieldEntry) : (s.encodeFrame m).parrejSeen = s.parrejSeen := rfl
@[simp] theorem State.encodeFrame_frameValid (s : State) (m : List FieldEntry) : (s.encodeFrame m).frameValid = s.frameValid := rfl
@[simp] theorem State.encodeFrame_vflags (s : State) (m : List FieldEntry) : (s.encodeFrame m).vflags = s.vflags := rfl
@[simp] theorem State.encodeFrame_tlm (s : State) (m : List FieldEntry) : (s.encodeFrame m).tlm = s.tlm := rfl
@[simp] theorem State.encodeFrame_how (s : State) (m : List FieldEntry) : (s.encodeFrame m).how = s.how := rfl
@[simp] theorem State.encodeFrame_fld (s : State) (m : List FieldEntry) : (s.encodeFrame m).fld = s.fld := rfl
@[simp] theorem State.encodeFrame_requests (s : State) (m : List FieldEntry) : (s.encodeFrame m).requests = s.requests := rfl
@[simp] theorem State.encodeFrame_response (s : State) (m : List FieldEntry) : (s.encodeFrame m).response = s.response := rfl

end EncodeFrameLaws

section CloseCursorLaws

@[simp] theorem State.closeCursor_built (s : State) : s.closeCursor.built = s.built := by unfold State.closeCursor; split <;> rfl
@[simp] theorem State.closeCursor_parityEn (s : State) : s.closeCursor.parityEn = s.parityEn := by unfold State.closeCursor; split <;> rfl
@[simp] theorem State.closeCursor_thresh (s : State) : s.closeCursor.thresh = s.thresh := by unfold State.closeCursor; split <;> rfl
@[simp] theorem State.closeCursor_cmode (s : State) : s.closeCursor.cmode = .closed := by unfold State.closeCursor; split <;> rfl
@[simp] theorem State.closeCursor_sb (s : State) : s.closeCursor.sb = s.sb := by unfold State.closeCursor; split <;> rfl
@[simp] theorem State.closeCursor_stream (s : State) : s.closeCursor.stream = [] := by unfold State.closeCursor; split <;> rfl
@[simp] theorem State.closeCursor_pos (s : State) : s.closeCursor.pos = 0 := by unfold State.closeCursor; split <;> rfl
@[simp] theorem State.closeCursor_prev2 (s : State) : s.closeCursor.prev2 = if s.cmode.readable then s.prev2AtPos else s.prev2 := by unfold State.closeCursor; split <;> rfl
@[simp] theorem State.closeCursor_fsm (s : State) : s.closeCursor.fsm = s.fsm := by unfold State.closeCursor; split <;> rfl
@[simp] theorem State.closeCursor_consumed (s : State) : s.closeCursor.consumed = s.consumed := by unfold State.closeCursor; split <;> rfl
@[simp] theorem State.closeCursor_unsupSeen (s : State) : s.closeCursor.unsupSeen = s.unsupSeen := by unfold State.closeCursor; split <;> rfl
@[simp] theorem State.closeCursor_parrejSeen (s : State) : s.closeCursor.parrejSeen = s.parrejSeen := by unfold State.closeCursor; split <;> rfl
@[simp] theorem State.closeCursor_frameValid (s : State) : s.closeCursor.frameValid = s.frameValid := by unfold State.closeCursor; split <;> rfl
@[simp] theorem State.closeCursor_vflags (s : State) : s.closeCursor.vflags = s.vflags := by unfold State.closeCursor; split <;> rfl
@[simp] theorem State.closeCursor_tlm (s : State) : s.closeCursor.tlm = s.tlm := by unfold State.closeCursor; split <;> rfl
@[simp] theorem State.closeCursor_how (s : State) : s.closeCursor.how = s.how := by unfold State.closeCursor; split <;> rfl
@[simp] theorem State.closeCursor_fld (s : State) : s.closeCursor.fld = s.fld := by unfold State.closeCursor; split <;> rfl
@[simp] theorem State.closeCursor_requests (s : State) : s.closeCursor.requests = s.requests := by unfold State.closeCursor; split <;> rfl
@[simp] theorem State.closeCursor_response (s : State) : s.closeCursor.response = s.response := by unfold State.closeCursor; split <;> rfl

end CloseCursorLaws

section FinishScanLaws

@[simp] theorem State.finishScan_built (s : State) (e : ScanEnd) : (s.finishScan e).built = s.built := by unfold State.finishScan; split <;> simp_all [State.storeFrame]
@[simp] theorem State.finishScan_parityEn (s : State) (e : ScanEnd) : (s.finishScan e).parityEn = s.parityEn := by unfold State.finishScan; split <;> simp_all [State.storeFrame]
@[simp] theorem State.finishScan_thresh (s : State) (e : ScanEnd) : (s.finishScan e).thresh = s.thresh := by unfold State.finishScan; split <;> simp_all [State.storeFrame]
@[simp] theorem State.finishScan_cmode (s : State) (e : ScanEnd) : (s.finishScan e).cmode = s.cmode := by unfold State.finishScan; split <;> simp_all [State.storeFrame]
@[simp] theorem State.finishScan_sb (s : State) (e : ScanEnd) : (s.finishScan e).sb = s.sb := by unfold State.finishScan; split <;> simp_all [State.storeFrame]
@[simp] theorem State.finishScan_stream (s : State) (e : ScanEnd) : (s.finishScan e).stream = s.stream := by unfold State.finishScan; split <;> simp_all [State.storeFrame]
@[simp] theorem State.finishScan_pos (s : State) (e : ScanEnd) : (s.finishScan e).pos = e.pos := by unfold State.finishScan; split <;> simp_all [State.storeFrame]
@[simp] theorem State.finishScan_prev2 (s : State) (e : ScanEnd) : (s.finishScan e).prev2 = s.prev2 := by unfold State.finishScan; split <;> simp_all [State.storeFrame]
@[simp] theorem State.finishScan_fsm (s : State) (e : ScanEnd) : (s.finishScan e).fsm = e.fsm := by unfold State.finishScan; split <;> simp_all [State.storeFrame]
@[simp] theorem State.finishScan_consumed (s : State) (e : ScanEnd) : (s.finishScan e).consumed = e.pos := by unfold State.finishScan; split <;> simp_all [State.storeFrame]
@[simp] theorem State.finishScan_unsupSeen (s : State) (e : ScanEnd) : (s.finishScan e).unsupSeen = e.unsup := by unfold State.finishScan; split <;> simp_all [State.storeFrame]
@[simp] theorem State.finishScan_parrejSeen (s : State) (e : ScanEnd) : (s.finishScan e).parrejSeen = e.parrej := by unfold State.finishScan; split <;> simp_all [State.storeFrame]
@[simp] theorem State.finishScan_frameValid (s : State) (e : ScanEnd) : (s.finishScan e).frameValid = e.frame.isSome := by unfold State.finishScan; split <;> simp_all [State.storeFrame]
@[simp] theorem State.finishScan_requests (s : State) (e : ScanEnd) : (s.finishScan e).requests = s.requests := by unfold State.finishScan; split <;> simp_all [State.storeFrame]
@[simp] theorem State.finishScan_response (s : State) (e : ScanEnd) : (s.finishScan e).response = s.response := by unfold State.finishScan; split <;> simp_all [State.storeFrame]

end FinishScanLaws

section WriteFrameRegLaws

@[simp] theorem State.writeFrameReg_built (s : State) (f : FrameReg) (v : Word) : (s.writeFrameReg f v).built = s.built := by cases f <;> rfl
@[simp] theorem State.writeFrameReg_parityEn (s : State) (f : FrameReg) (v : Word) : (s.writeFrameReg f v).parityEn = s.parityEn := by cases f <;> rfl
@[simp] theorem State.writeFrameReg_thresh (s : State) (f : FrameReg) (v : Word) : (s.writeFrameReg f v).thresh = s.thresh := by cases f <;> rfl
@[simp] theorem State.writeFrameReg_cmode (s : State) (f : FrameReg) (v : Word) : (s.writeFrameReg f v).cmode = s.cmode := by cases f <;> rfl
@[simp] theorem State.writeFrameReg_sb (s : State) (f : FrameReg) (v : Word) : (s.writeFrameReg f v).sb = s.sb := by cases f <;> rfl
@[simp] theorem State.writeFrameReg_stream (s : State) (f : FrameReg) (v : Word) : (s.writeFrameReg f v).stream = s.stream := by cases f <;> rfl
@[simp] theorem State.writeFrameReg_pos (s : State) (f : FrameReg) (v : Word) : (s.writeFrameReg f v).pos = s.pos := by cases f <;> rfl
@[simp] theorem State.writeFrameReg_prev2 (s : State) (f : FrameReg) (v : Word) : (s.writeFrameReg f v).prev2 = s.prev2 := by cases f <;> rfl
@[simp] theorem State.writeFrameReg_fsm (s : State) (f : FrameReg) (v : Word) : (s.writeFrameReg f v).fsm = s.fsm := by cases f <;> rfl
@[simp] theorem State.writeFrameReg_consumed (s : State) (f : FrameReg) (v : Word) : (s.writeFrameReg f v).consumed = s.consumed := by cases f <;> rfl
@[simp] theorem State.writeFrameReg_unsupSeen (s : State) (f : FrameReg) (v : Word) : (s.writeFrameReg f v).unsupSeen = s.unsupSeen := by cases f <;> rfl
@[simp] theorem State.writeFrameReg_parrejSeen (s : State) (f : FrameReg) (v : Word) : (s.writeFrameReg f v).parrejSeen = s.parrejSeen := by cases f <;> rfl
@[simp] theorem State.writeFrameReg_frameValid (s : State) (f : FrameReg) (v : Word) : (s.writeFrameReg f v).frameValid = false := by cases f <;> rfl
@[simp] theorem State.writeFrameReg_vflags (s : State) (f : FrameReg) (v : Word) : (s.writeFrameReg f v).vflags = s.vflags := by cases f <;> rfl
@[simp] theorem State.writeFrameReg_requests (s : State) (f : FrameReg) (v : Word) : (s.writeFrameReg f v).requests = s.requests := by cases f <;> rfl
@[simp] theorem State.writeFrameReg_response (s : State) (f : FrameReg) (v : Word) : (s.writeFrameReg f v).response = s.response := by cases f <;> rfl

end WriteFrameRegLaws

/-! The frame registers after a scan: the accepted frame, or what they held (R181). -/

@[simp] theorem State.finishScan_frameRegs_some (s : State) (e : ScanEnd) (c : Candidate) (h : e.frame = some c) :
    (s.finishScan e).tlm = c.tlm ∧ (s.finishScan e).how = c.how ∧ (s.finishScan e).fld = c.fld ∧
      (s.finishScan e).vflags = c.vflags := by
  simp [State.finishScan, h]

@[simp] theorem State.finishScan_frameRegs_none (s : State) (e : ScanEnd) (h : e.frame = none) :
    (s.finishScan e).tlm = s.tlm ∧ (s.finishScan e).how = s.how ∧ (s.finishScan e).fld = s.fld ∧
      (s.finishScan e).vflags = s.vflags := by
  simp [State.finishScan, h]

end Sys2Proof.Machine
end

