-- ==== Sys2Proof/Laws/Ops.lean ====
section
/-! SUPPORT. What the shared operations can do, once each: answering, failing, the mode check, the capacity check, the request
port, register numbers, and the memory form every operation keeps. -/

namespace Sys2Proof.Machine

/-- A command that ends answers and goes on (R3). -/
@[simp] theorem finish_eq (s : State) (st : Status) (res : Word) : finish s st res = .next (s.answer st res) := rfl

@[simp] theorem succeed_eq (s : State) (res : Word) : succeed s res = .next (s.answer .ok res) := rfl

/-- A failing command answers its status with RES = 0 and writes nothing (R290). -/
@[simp] theorem fail_eq (s : State) (st : Status) : fail s st = .next (s.answer st 0) := rfl

/-- In a legal mode of a built instance the command goes on (R120). -/
theorem whenLegal_legal (s : State) (legal : CMode → Bool) (k : Result) (hb : s.built = true)
    (hm : legal s.cmode = true) : whenLegal s legal k = k := by simp [whenLegal, hb, hm]

/-- Otherwise it answers WrongMode and writes nothing (R120, R286). -/
theorem whenLegal_illegal (s : State) (legal : CMode → Bool) (k : Result)
    (h : ¬ (s.built = true ∧ legal s.cmode = true)) : whenLegal s legal k = .next (s.answer .wrongMode 0) := by
  have h' : (s.built && legal s.cmode) = false := by
    cases hb : s.built <;> cases hm : legal s.cmode <;> simp_all
  rw [whenLegal, h', if_neg Bool.false_ne_true]
  rfl

/-- All the mode check can do: the command in a legal mode, WrongMode elsewhere. -/
theorem whenLegal_cases (s : State) (legal : CMode → Bool) (k : Result) :
    (s.built = true ∧ legal s.cmode = true ∧ whenLegal s legal k = k) ∨
      (¬ (s.built = true ∧ legal s.cmode = true) ∧ whenLegal s legal k = .next (s.answer .wrongMode 0)) := by
  by_cases h : s.built = true ∧ legal s.cmode = true
  · exact .inl ⟨h.1, h.2, whenLegal_legal s legal k h.1 h.2⟩
  · exact .inr ⟨h, whenLegal_illegal s legal k h⟩

theorem readable_iff (m : CMode) : m.readable = true ↔ m = .decode ∨ m = .carry := by cases m <;> decide

theorem writable_iff (m : CMode) : m.writable = true ↔ m = .encode := by cases m <;> decide

theorem carried_iff (m : CMode) : m.carried = true ↔ m = .carry := by cases m <;> decide

theorem noCursor_iff (m : CMode) : m.noCursor = true ↔ m = .closed := by cases m <;> decide

theorem hasCursor_iff (m : CMode) : m.hasCursor = true ↔ m ≠ .closed := by cases m <;> decide

@[simp] theorem any_eq_true (m : CMode) : m.any = true := by cases m <;> rfl

theorem fits_iff (s : State) (n : Nat) : s.fits n = true ↔ s.stream.length + n ≤ capBits := by simp [State.fits]

/-- CAP_BYTES is within the bounds of R7. -/
theorem capBytes_bounds : 40 ≤ capBytes ∧ capBytes ≤ 2 ^ 21 - 1 := by
  simp only [capBytes, Config.capMin, Config.capMax]
  omega

/-- Every position of a sound state is below 2^24 (R25, R39 item 1). -/
theorem capBits_lt : capBits < 2 ^ 24 := by
  have h := capBytes_bounds
  simp only [capBits]
  omega

@[simp] theorem takeRequest_nil (s : State) (h : s.requests = []) : s.takeRequest = none := by
  simp [State.takeRequest, h]

@[simp] theorem takeRequest_cons (s : State) (r : Request) (rest : List Request) (h : s.requests = r :: rest) :
    s.takeRequest = some (r, { s with requests := rest }) := by simp [State.takeRequest, h]

/-- Offering a request and taking it gives back the state (R3). -/
theorem takeRequest_offer (s : State) (r : Request) : (s.offer r).takeRequest = some (r, s) := rfl

/-- The staging buffer and the stream store of a state are in the memory form (R68). -/
theorem memory_wf_iff (sb : List SBEntry) (stream : List Bool) :
    Memory.wf sb stream = true ↔ sb.length ≤ capBytes ∧ stream.length ≤ capBits := by simp [Memory.wf]

/-- Reset's memory has the form. -/
theorem reset_memory_wf : Memory.wf State.reset.sb State.reset.stream = true := by simp [memory_wf_iff, State.reset]

theorem build_memory_wf (s : State) (p : Bool) (t : BitVec 4) :
    Memory.wf (s.build p t).sb (s.build p t).stream = true := by simp [memory_wf_iff]

theorem clearStaging_memory_wf (s : State) (h : Memory.wf s.sb s.stream = true) :
    Memory.wf s.clearStaging.sb s.clearStaging.stream = true := by simp_all [memory_wf_iff]

theorem pushStaging_memory_wf (s : State) (b : Byte) (p : BitVec 3) (h : Memory.wf s.sb s.stream = true)
    (hroom : s.sb.length < capBytes) : Memory.wf (s.pushStaging b p).sb (s.pushStaging b p).stream = true := by
  simp_all [memory_wf_iff]

theorem openCursor_memory_wf (s : State) (m : CMode) (usepad : Bool) (h : Memory.wf s.sb s.stream = true) :
    Memory.wf (s.openCursor m (strip s.sb usepad)).sb (s.openCursor m (strip s.sb usepad)).stream = true := by
  have hl := length_strip_le s.sb usepad
  simp only [memory_wf_iff, State.openCursor_sb, State.openCursor_stream, capBits] at h ⊢
  omega

theorem openEmpty_memory_wf (s : State) (m : CMode) (h : Memory.wf s.sb s.stream = true) :
    Memory.wf (s.openCursor m []).sb (s.openCursor m []).stream = true := by simp_all [memory_wf_iff]

theorem closeCursor_memory_wf (s : State) (h : Memory.wf s.sb s.stream = true) :
    Memory.wf s.closeCursor.sb s.closeCursor.stream = true := by simp_all [memory_wf_iff]

theorem appendBits_memory_wf (s : State) (bits : List Bool) (h : Memory.wf s.sb s.stream = true)
    (hroom : s.fits bits.length = true) : Memory.wf (s.appendBits bits).sb (s.appendBits bits).stream = true := by
  simp_all [memory_wf_iff, fits_iff]

theorem dropConsumed_memory_wf (s : State) (h : Memory.wf s.sb s.stream = true) :
    Memory.wf s.dropConsumed.sb s.dropConsumed.stream = true := by
  simp_all [memory_wf_iff]; omega

theorem finishScan_memory_wf (s : State) (e : ScanEnd) (h : Memory.wf s.sb s.stream = true) :
    Memory.wf (s.finishScan e).sb (s.finishScan e).stream = true := by simp_all [memory_wf_iff]

/-- One word adds 30 bits (R215). -/
@[simp] theorem length_appendWord (carry : BitVec 2) (d : SourceWords) (bs : List Bool) (w : Nat) :
    (appendWord carry d bs w).length = bs.length + 30 := by simp [appendWord]

/-- A subframe adds 300 bits (R215). -/
@[simp] theorem length_appendSubframe (carry : BitVec 2) (d : SourceWords) (bs : List Bool) :
    (appendSubframe carry d bs).length = bs.length + 300 := by simp [appendSubframe]

theorem encodeFrame_memory_wf (s : State) (m : List FieldEntry) (h : Memory.wf s.sb s.stream = true)
    (hroom : s.fits subframeBits = true) : Memory.wf (s.encodeFrame m).sb (s.encodeFrame m).stream = true := by
  simp_all [memory_wf_iff, fits_iff, subframeBits]

/-- Every register number names a register or is reserved (R21). -/
theorem ofNumber_isSome (reg : BitVec 5) : (Reg.ofNumber reg).isSome = decide (reg.toNat ≤ 19) := by
  revert reg; decide

/-- The frame registers are numbers 7 to 19 (R21, R262). -/
theorem frameReg_ofNumber_isSome (reg : BitVec 5) :
    (FrameReg.ofNumber reg).isSome = (decide (7 ≤ reg.toNat) && decide (reg.toNat ≤ 19)) := by
  revert reg; decide

/-- The supported identifiers are 1, 2 and 3 (R205). -/
theorem supported_iff (sfid : BitVec 3) : supported sfid = true ↔ 1 ≤ sfid.toNat ∧ sfid.toNat ≤ 3 := by
  revert sfid; decide

end Sys2Proof.Machine
end

