-- ==== Sys2Proof/Laws/PerInstr.lean ====
section
/-! SUPPORT. Facts proved of every command, one lemma per constructor: the encoded CMD carries the opcode of its row of
30_encoding R92 in CMD[31:24]. -/

namespace Sys2Proof.Laws

/-- The OPC column of R92. -/
def opcodeNumber : Instr → BitVec 8
  | .init _ _ => 0x01
  | .rdreg _ => 0x02
  | .wrfrm _ _ => 0x03
  | .sbClr => 0x10
  | .sbPush _ _ => 0x11
  | .bcOpen _ => 0x20
  | .bcOpenW => 0x21
  | .bcOpenC => 0x22
  | .bcClose => 0x23
  | .bcPeek _ => 0x24
  | .bcAdv _ => 0x25
  | .bcPos => 0x26
  | .bcPut _ _ => 0x27
  | .bcAppend _ _ => 0x28
  | .bcDrop => 0x29
  | .bcRdb _ => 0x2A
  | .parComp _ => 0x30
  | .parVrfy _ => 0x31
  | .syncScan => 0x40
  | .sfDec => 0x41
  | .sfEnc => 0x42
  | .decRaw => 0x48
  | .decByte _ _ => 0x49

/-- The CMD of the encoded command carries its opcode (R90: `CMD[31:24]` alone selects the command). -/
def OpcodeByte.Statement (i : Instr) : Prop := opcodeOf (encode i).cmd = opcodeNumber i

theorem OpcodeByte.init (p : Bool) (t : BitVec 4) : OpcodeByte.Statement (.init p t) := opcodeOf_formatC _ _ _
theorem OpcodeByte.rdreg (reg : BitVec 5) : OpcodeByte.Statement (.rdreg reg) := opcodeOf_formatR _ _
theorem OpcodeByte.wrfrm (reg : BitVec 5) (v : Word) : OpcodeByte.Statement (.wrfrm reg v) := opcodeOf_formatR _ _
theorem OpcodeByte.sbClr : OpcodeByte.Statement (.sbClr) := opcodeOf_formatZ _
theorem OpcodeByte.sbPush (b : Byte) (p : BitVec 3) : OpcodeByte.Statement (.sbPush b p) := opcodeOf_formatB _ _ _
theorem OpcodeByte.bcOpen (u : Bool) : OpcodeByte.Statement (.bcOpen u) := opcodeOf_formatO _ _
theorem OpcodeByte.bcOpenW : OpcodeByte.Statement (.bcOpenW) := opcodeOf_formatZ _
theorem OpcodeByte.bcOpenC : OpcodeByte.Statement (.bcOpenC) := opcodeOf_formatZ _
theorem OpcodeByte.bcClose : OpcodeByte.Statement (.bcClose) := opcodeOf_formatZ _
theorem OpcodeByte.bcPeek (n : BitVec 24) : OpcodeByte.Statement (.bcPeek n) := opcodeOf_formatN _ _
theorem OpcodeByte.bcAdv (n : BitVec 24) : OpcodeByte.Statement (.bcAdv n) := opcodeOf_formatN _ _
theorem OpcodeByte.bcPos : OpcodeByte.Statement (.bcPos) := opcodeOf_formatZ _
theorem OpcodeByte.bcPut (n : BitVec 24) (v : Word) : OpcodeByte.Statement (.bcPut n v) := opcodeOf_formatN _ _
theorem OpcodeByte.bcAppend (b : Byte) (p : BitVec 3) : OpcodeByte.Statement (.bcAppend b p) := opcodeOf_formatB _ _ _
theorem OpcodeByte.bcDrop : OpcodeByte.Statement (.bcDrop) := opcodeOf_formatZ _
theorem OpcodeByte.bcRdb (n : BitVec 24) : OpcodeByte.Statement (.bcRdb n) := opcodeOf_formatN _ _
theorem OpcodeByte.parComp (v : Word) : OpcodeByte.Statement (.parComp v) := opcodeOf_formatZ _
theorem OpcodeByte.parVrfy (v : Word) : OpcodeByte.Statement (.parVrfy v) := opcodeOf_formatZ _
theorem OpcodeByte.syncScan : OpcodeByte.Statement (.syncScan) := opcodeOf_formatZ _
theorem OpcodeByte.sfDec : OpcodeByte.Statement (.sfDec) := opcodeOf_formatZ _
theorem OpcodeByte.sfEnc : OpcodeByte.Statement (.sfEnc) := opcodeOf_formatZ _
theorem OpcodeByte.decRaw : OpcodeByte.Statement (.decRaw) := opcodeOf_formatZ _
theorem OpcodeByte.decByte (b : Byte) (p : BitVec 3) : OpcodeByte.Statement (.decByte b p) := opcodeOf_formatB _ _ _

end Sys2Proof.Laws
end

