-- ==== Sys2Proof/Laws/Safety.lean ====
section
/-! SUPPORT. The small lemmas of Safety.lean: one call of either decoding mode, and the fields a raw-mode call leaves. -/

namespace Sys2Proof.Machine

@[simp] theorem feedBytes_nil (s : State) (base : Nat) : feedBytes [] s base = ([], base) := rfl

/-- One byte of byte-with-padding mode. -/
theorem feedBytes_cons (e : SBEntry) (rest : List SBEntry) (s t : State) (base : Nat)
    (h : exec (.decByte e.byte e.pad) s = .next t) :
    feedBytes (e :: rest) s base =
      (if t.frameValid then
        ((base + t.consumed, t.frame) :: (feedBytes rest t (base + t.consumed)).1, (feedBytes rest t (base + t.consumed)).2)
       else feedBytes rest t (base + t.consumed)) := by
  simp [feedBytes, h]

@[simp] theorem rawCalls_zero (bits : List Bool) (s : State) (base : Nat) : rawCalls 0 bits s base = ([], base) := rfl

/-- One call of raw mode. -/
theorem rawCalls_succ (turns : Nat) (bits : List Bool) (s : State) (base : Nat) :
    rawCalls (turns + 1) bits s base =
      (if (s.rawCall (bits.drop base)).frameValid then
        ((base + (s.rawCall (bits.drop base)).consumed, (s.rawCall (bits.drop base)).frame) ::
          (rawCalls turns bits (s.rawCall (bits.drop base)) (base + (s.rawCall (bits.drop base)).consumed)).1,
         (rawCalls turns bits (s.rawCall (bits.drop base)) (base + (s.rawCall (bits.drop base)).consumed)).2)
       else ([], base + (s.rawCall (bits.drop base)).consumed)) := rfl

@[simp] theorem rawCall_built (s : State) (bits : List Bool) : (s.rawCall bits).built = s.built := by
  simp [State.rawCall, State.scan]
@[simp] theorem rawCall_parityEn (s : State) (bits : List Bool) : (s.rawCall bits).parityEn = s.parityEn := by
  simp [State.rawCall, State.scan]
@[simp] theorem rawCall_thresh (s : State) (bits : List Bool) : (s.rawCall bits).thresh = s.thresh := by
  simp [State.rawCall, State.scan]
@[simp] theorem rawCall_cmode (s : State) (bits : List Bool) : (s.rawCall bits).cmode = .closed := by
  simp [State.rawCall]
@[simp] theorem rawCall_sb (s : State) (bits : List Bool) : (s.rawCall bits).sb = s.sb := by
  simp [State.rawCall, State.scan]
@[simp] theorem rawCall_stream (s : State) (bits : List Bool) : (s.rawCall bits).stream = [] := by
  simp [State.rawCall]
@[simp] theorem rawCall_pos (s : State) (bits : List Bool) : (s.rawCall bits).pos = 0 := by
  simp [State.rawCall]

/-- What a raw-mode call reads of the state it starts in: the configuration and the carried bits. -/
theorem openCursor_decode_view (s : State) (bits : List Bool) :
    (s.openCursor .decode bits).view = ⟨s.parityEn, s.thresh, s.prev2, bits⟩ := rfl

@[simp] theorem rawCall_consumed (s : State) (bits : List Bool) :
    (s.rawCall bits).consumed = (scanFrom ⟨s.parityEn, s.thresh, s.prev2, bits⟩ 0).pos := by
  simp [State.rawCall, State.scan, openCursor_decode_view]
@[simp] theorem rawCall_frameValid (s : State) (bits : List Bool) :
    (s.rawCall bits).frameValid = (scanFrom ⟨s.parityEn, s.thresh, s.prev2, bits⟩ 0).frame.isSome := by
  simp [State.rawCall, State.scan, openCursor_decode_view]

end Sys2Proof.Machine
end

