-- ==== Sys2Proof/Laws/Scan.lean ====
section
/-! SUPPORT. What the scan loop of 42_synchronizer R181 can answer, for every number of turns: where it may stop, and what an
accepted or an exhausted scan means (R184, R185). -/

namespace Sys2Proof.Machine

/-- A subframe with all its bits there, whose preamble stands and which is not rejected (R182). -/
def acceptable (v : View) (q : Nat) : Prop :=
  q + 300 ≤ v.stream.length ∧ takeBits v.stream q 8 = preamble ∧
    rejectedUnsup (decodeSubframe v q) = false ∧ rejectedParity v (decodeSubframe v q) = false

/-- A position at which a scan stops for want of bits (R184). -/
def undecided (v : View) (q : Nat) : Prop :=
  v.stream.length - q < 8 ∨ (takeBits v.stream q 8 = preamble ∧ v.stream.length - q < 300)

/-- One turn of the loop, in its four cases (R181). -/
theorem scanLoop_succ (v : View) (turns p : Nat) (u r : Bool) :
    (v.stream.length - p < 8 ∧ scanLoop v (turns + 1) p u r = ⟨p, .searching, u, r, none⟩) ∨
    (8 ≤ v.stream.length - p ∧ takeBits v.stream p 8 = preamble ∧ v.stream.length - p < 300 ∧
      scanLoop v (turns + 1) p u r = ⟨p, .tentativeLock, u, r, none⟩) ∨
    (acceptable v p ∧ scanLoop v (turns + 1) p u r = ⟨p + 300, .locked, u, r, some (decodeSubframe v p)⟩) ∨
    (8 ≤ v.stream.length - p ∧ ¬ acceptable v p ∧ ¬ undecided v p ∧
      ∃ u' r', scanLoop v (turns + 1) p u r = scanLoop v turns (p + 1) u' r') := by
  by_cases h8 : v.stream.length - p < 8
  · exact .inl ⟨h8, by simp [scanLoop, h8]⟩
  by_cases hp : takeBits v.stream p 8 = preamble
  · by_cases h300 : v.stream.length - p < 300
    · exact .inr (.inl ⟨by omega, hp, h300, by simp [scanLoop, h8, hp, h300, subframeBits]⟩)
    cases hu : rejectedUnsup (decodeSubframe v p) <;> cases hr : rejectedParity v (decodeSubframe v p)
    · exact .inr (.inr (.inl ⟨⟨by omega, hp, hu, hr⟩, by simp [scanLoop, h8, hp, h300, subframeBits, hu, hr]⟩))
    all_goals
      refine .inr (.inr (.inr ⟨by omega, fun h => ?_, fun h => ?_,
        u || rejectedUnsup (decodeSubframe v p), r || rejectedParity v (decodeSubframe v p),
        by simp [scanLoop, h8, hp, h300, subframeBits, hu, hr]⟩))
      · simp [acceptable, hu, hr] at h
      · rcases h with h | h <;> omega
  · refine .inr (.inr (.inr ⟨by omega, fun h => hp h.2.1, fun h => ?_, u, r, by simp [scanLoop, h8, hp]⟩))
    rcases h with h | h
    · exact h8 h
    · exact hp h.1

/-- The scan moves forward and stays within the stream (R185 item 2). -/
theorem scanLoop_bounds (v : View) (turns p : Nat) (u r : Bool) (hp : p ≤ v.stream.length) :
    p ≤ (scanLoop v turns p u r).pos ∧ (scanLoop v turns p u r).pos ≤ v.stream.length := by
  induction turns generalizing p u r with
  | zero => simp [scanLoop, hp]
  | succ turns ih =>
    rcases scanLoop_succ v turns p u r with ⟨_, h⟩ | ⟨_, _, _, h⟩ | ⟨ha, h⟩ | ⟨h8, _, _, u', r', h⟩
    · simp [h, hp]
    · simp [h, hp]
    · have := ha.1
      simp [h]; omega
    · have := ih (p + 1) u' r' (by omega)
      rw [h]; omega

/-- An accepted frame is the decode of an acceptable subframe that ends where the scan ended, with the state machine locked;
without one the state machine is not locked (R181, R185 item 3). -/
theorem scanLoop_frame (v : View) (turns p : Nat) (u r : Bool) :
    (∃ q, p ≤ q ∧ acceptable v q ∧ (scanLoop v turns p u r).pos = q + 300 ∧ (scanLoop v turns p u r).fsm = .locked ∧
      (scanLoop v turns p u r).frame = some (decodeSubframe v q) ∧ ∀ j, p ≤ j → j < q → ¬ acceptable v j) ∨
    ((scanLoop v turns p u r).frame = none ∧ (scanLoop v turns p u r).fsm ≠ .locked) := by
  induction turns generalizing p u r with
  | zero => exact .inr ⟨rfl, by simp [scanLoop]⟩
  | succ turns ih =>
    rcases scanLoop_succ v turns p u r with ⟨_, h⟩ | ⟨_, _, _, h⟩ | ⟨ha, h⟩ | ⟨_, hna, _, u', r', h⟩
    · exact .inr (by simp [h])
    · exact .inr (by simp [h])
    · refine .inl ⟨p, le_refl p, ha, by simp [h], by simp [h], by simp [h], ?_⟩
      intro j h1 h2; omega
    · rw [h]
      rcases ih (p + 1) u' r' with ⟨q, hq, ha, h1, h2, h3, h4⟩ | hnone
      · refine .inl ⟨q, by omega, ha, h1, h2, h3, ?_⟩
        intro j hj1 hj2
        rcases Nat.eq_or_lt_of_le hj1 with rfl | hlt
        · exact hna
        · exact h4 j hlt hj2
      · exact .inr hnone

/-- With turns enough, a scan without a frame stopped at the first undecided position (R184, R185 item 4). -/
theorem scanLoop_exhausted (v : View) (turns p : Nat) (u r : Bool) (hturns : v.stream.length - p < turns)
    (hnone : (scanLoop v turns p u r).frame = none) :
    undecided v (scanLoop v turns p u r).pos ∧
      ((scanLoop v turns p u r).fsm = .searching → v.stream.length - (scanLoop v turns p u r).pos < 8) ∧
      ∀ j, p ≤ j → j < (scanLoop v turns p u r).pos → ¬ acceptable v j ∧ ¬ undecided v j := by
  induction turns generalizing p u r with
  | zero => omega
  | succ turns ih =>
    rcases scanLoop_succ v turns p u r with ⟨h8, h⟩ | ⟨_, hp, h300, h⟩ | ⟨_, h⟩ | ⟨h8, hna, hnu, u', r', h⟩
    · rw [h]
      exact ⟨.inl h8, fun _ => h8, by intro j h1 h2; simp at h2; omega⟩
    · rw [h]
      exact ⟨.inr ⟨hp, h300⟩, by simp, by intro j h1 h2; simp at h2; omega⟩
    · simp [h] at hnone
    · rw [h] at hnone ⊢
      obtain ⟨h1, h2, h3⟩ := ih (p + 1) u' r' (by omega) hnone
      refine ⟨h1, h2, ?_⟩
      intro j hj1 hj2
      rcases Nat.eq_or_lt_of_le hj1 with rfl | hlt
      · exact ⟨hna, hnu⟩
      · exact h3 j hlt hj2

/-- The reasons seen before a scan loop only add to its own (R38). -/
theorem scanLoop_reasons (v : View) (turns p : Nat) (u r : Bool) :
    scanLoop v turns p u r =
      { scanLoop v turns p false false with
        unsup := u || (scanLoop v turns p false false).unsup
        parrej := r || (scanLoop v turns p false false).parrej } := by
  induction turns generalizing p u r with
  | zero => simp [scanLoop]
  | succ turns ih =>
    simp only [scanLoop]
    split
    · simp
    · split
      · exact ih (p + 1) u r
      · split
        · simp
        · split
          · rw [ih, ih (p + 1) (false || _) (false || _)]
            simp [Bool.or_assoc]
          · simp

/-- A scan answers OK with a frame and InsufficientData without one, nothing else (R184, R246). -/
theorem scanStatus_cases (e : ScanEnd) :
    (scanStatus e = .ok ∧ ∃ c, e.frame = some c) ∨ (scanStatus e = .insufficientData ∧ e.frame = none) := by
  unfold scanStatus
  cases h : e.frame <;> simp

end Sys2Proof.Machine
end

