-- ==== Sys2Proof/Tests/Slice0.lean ====
section
/-! SUPPORT. Tests on fixed values. Expected results are the vectors and examples of spec/ (30_encoding section 6, 95_test_vectors,
the examples of the rules named), never the model's own answers; the last part holds one witness for the hypotheses of each
statement of Obligations.lean. -/

namespace Sys2Proof.Tests

-- one test at a time: each evaluates in the kernel on a stack of its own
set_option Elab.async false

open Sys2Proof Sys2Proof.Machine

/-- The state after INIT parity=1, thresh=1, where the vectors start. -/
def fresh : State := State.reset.build true 1

/-- A cursor of mode m over the bits, at position p. -/
def cursor (m : CMode) (bits : List Bool) (p : Nat) : State := (fresh.openCursor m bits).seek p

/-- The state a command leaves. -/
def after (i : Instr) (s : State) : State :=
  match exec i s with
  | .next t => t
  | .fault _ => State.reset
  | .refused _ => State.reset

/-- The response a command gives. -/
def said (i : Instr) (s : State) : Option Response := (after i s).response

/-- The status and result of a response, as the vectors write them. -/
def answer (st : Status) (res : Nat) : Option Response := some ⟨st, BitVec.ofNat 32 res⟩

/-- The bits of a list of bytes, in stream order. -/
def bitsOfBytes (bytes : List Nat) : List Bool := bytes.flatMap (fun b => bitsOf 8 (BitVec.ofNat 8 b))

/-- The stream of vectors V1 and V2. -/
def v1 : List Bool := bitsOfBytes [0xA5, 0x3C, 0xF0]

def v2 : List SBEntry := [⟨0xA5, 1⟩, ⟨0x3C, 1⟩, ⟨0xF0, 4⟩]

/-- Vector F1, packed (95_test_vectors section 2.5). -/
def f1Bytes : List Nat :=
  [0x8B, 0x48, 0xD0, 0xD1, 0x4B, 0x86, 0x9B, 0x85, 0x05, 0x20, 0x22, 0x5F, 0xFF, 0xFF, 0xFC, 0x00, 0x00, 0x00, 0x00] ++
  [0x00, 0x00, 0x00, 0x00, 0x00, 0x0F, 0xB0, 0x52, 0x38, 0xF7, 0xD9, 0x00, 0x01, 0x2B, 0x8B, 0xE1, 0xDC, 0x0C, 0xC0]

/-- The FLD registers of F1. -/
def f1Fld : Vector Word 11 :=
  #v[0x00000141, 1, 2, 0, 0x000002B7, 1, 0xFFFFFFFB, 0x00001C20, 0xFFFFFFFF, 0xFFFFFED4, 0xFFFE1DC0]

/-- An Encode cursor with F1's frame registers. -/
def f1Source : State := { cursor .encode [] 0 with tlm := 0x1234, how := 0x0CA5C3, fld := f1Fld }

/-- The 38 bytes of F1 as a staging buffer. -/
def f1Staged : State := { fresh with sb := f1Bytes.map (fun b => ⟨BitVec.ofNat 8 b, 0⟩) }

/-- The 38 bytes of F1 under a Decode cursor. -/
def f1Cursor : State := cursor .decode (bitsOfBytes f1Bytes) 0

/-! ## Well-formedness: an ill-formed term for each check (30_encoding R95) -/

theorem test_wf_init_zero : Instr.wf (.init false 0) = false := by decide
theorem test_wf_init_eleven : Instr.wf (.init false 11) = false ∧ Instr.wf (.init false 10) = true := by decide
theorem test_wf_rdreg_twenty : Instr.wf (.rdreg 20) = false ∧ Instr.wf (.rdreg 19) = true := by decide
theorem test_wf_wrfrm_six : Instr.wf (.wrfrm 6 0) = false ∧ Instr.wf (.wrfrm 7 0) = true := by decide
theorem test_wf_wrfrm_twenty : Instr.wf (.wrfrm 20 0) = false ∧ Instr.wf (.wrfrm 19 0) = true := by decide
theorem test_wf_peek_33 : Instr.wf (.bcPeek 33) = false ∧ Instr.wf (.bcPeek 32) = true := by decide
theorem test_wf_put_33 : Instr.wf (.bcPut 33 0) = false ∧ Instr.wf (.bcPut 32 0) = true := by decide

/-! ## Decoding: a word of each command, from the formats of R91 and the table of R92 -/

theorem test_decode_system :
    decode ⟨0x01000005, 0⟩ = .ok (.init true 2) ∧ decode ⟨0x01000014, 0⟩ = .ok (.init false 10) ∧
    decode ⟨0x02000013, 0⟩ = .ok (.rdreg 19) ∧ decode ⟨0x03000008, 0x000CA5C3⟩ = .ok (.wrfrm 8 0x000CA5C3) := by decide +kernel

theorem test_decode_staging :
    decode ⟨0x10000000, 7⟩ = .ok .sbClr ∧ decode ⟨0x110001A5, 0⟩ = .ok (.sbPush 0xA5 1) ∧
    decode ⟨0x110007FF, 0⟩ = .ok (.sbPush 0xFF 7) := by decide +kernel

theorem test_decode_cursor :
    decode ⟨0x20000000, 0⟩ = .ok (.bcOpen false) ∧ decode ⟨0x20000001, 0⟩ = .ok (.bcOpen true) ∧
    decode ⟨0x21000000, 0⟩ = .ok .bcOpenW ∧ decode ⟨0x22000000, 0⟩ = .ok .bcOpenC ∧ decode ⟨0x23000000, 0⟩ = .ok .bcClose ∧
    decode ⟨0x24000015, 0⟩ = .ok (.bcPeek 21) ∧ decode ⟨0x25FFFFFF, 0⟩ = .ok (.bcAdv 0xFFFFFF) ∧
    decode ⟨0x26000000, 0⟩ = .ok .bcPos := by decide +kernel

theorem test_decode_cursor_writes :
    decode ⟨0x2700000D, 0xFFFFFABC⟩ = .ok (.bcPut 13 0xFFFFFABC) ∧ decode ⟨0x280004F0, 0⟩ = .ok (.bcAppend 0xF0 4) ∧
    decode ⟨0x29000000, 0⟩ = .ok .bcDrop ∧ decode ⟨0x2A000025, 0⟩ = .ok (.bcRdb 37) := by decide +kernel

theorem test_decode_units :
    decode ⟨0x30000000, 0x022D2340⟩ = .ok (.parComp 0x022D2340) ∧ decode ⟨0x31000000, 0x8B48D0D0⟩ = .ok (.parVrfy 0x8B48D0D0) ∧
    decode ⟨0x40000000, 0⟩ = .ok .syncScan ∧ decode ⟨0x41000000, 0⟩ = .ok .sfDec ∧ decode ⟨0x42000000, 0⟩ = .ok .sfEnc ∧
    decode ⟨0x48000000, 0⟩ = .ok .decRaw ∧ decode ⟨0x4900018B, 0⟩ = .ok (.decByte 0x8B 1) := by decide +kernel

/-- 95_test_vectors section 2.1: the illegal words. -/
theorem test_decode_illegal :
    ([0x00000000, 0xFFFFFFFF, 0x04000000] : List Word).all (fun c => decode ⟨c, 0⟩ == .error .unknownOpcode) = true ∧
    ([0x26000001, 0x20000002, 0x11000800, 0x01000023] : List Word).all
      (fun c => decode ⟨c, 0⟩ == .error .nonzeroZeroField) = true := by decide +kernel

/-- The opcode table's numbering: CMD in bits 31 to 0, ARG above it. -/
theorem test_decodeTableWord :
    decodeTableWord 32 0x24000015 = some (.bcPeek 21) ∧ decodeTableWord 64 0x0000000527000003 = some (.bcPut 3 5) ∧
    decodeTableWord 32 0x26000001 = none := by decide +kernel

theorem test_encode_is_the_word :
    encode (.bcPut 30 0x22D23434) = ⟨0x2700001E, 0x22D23434⟩ ∧ encode (.decByte 0x8B 1) = ⟨0x4900018B, 0⟩ ∧
    encode (.init true 10) = ⟨0x01000015, 0⟩ := by decide +kernel

/-! ## The step -/

/-- The first command after power-on (95_test_vectors section 2.2, rows 1 and 3). -/
theorem test_step_after_reset :
    (match step (State.reset.withFetchWord 32 0x02000001) with | .next t => t.response | _ => none) = answer .wrongMode 0 ∧
    (match step (State.reset.withFetchWord 32 0x01000015) with | .next t => t.cfgBits | _ => 0) = 0x15 := by decide +kernel

theorem test_step_illegal :
    (match step (fresh.withFetchWord 32 0x26000001) with | .next t => t.response | _ => none) = answer .badCommand 0 := by
  decide +kernel

/-! ## System commands (95_test_vectors section 2.2) -/

theorem test_init : (after (.init false 3) f1Source).cfgBits = 6 ∧ (after (.init false 3) f1Source).tlm = 0 := by decide
theorem test_init_eleven : said (.init false 11) State.reset = answer .badCommand 0 := by decide
theorem test_rdreg_fld10 : said (.rdreg 0x13) f1Source = answer .ok 0xFFFE1DC0 := by decide +kernel

/-- 45_system R261: STATUS after the BC.CLOSE example of R126. -/
theorem test_rdreg_status : said (.rdreg 1) { fresh with prev2 := 0b10 } = answer .ok 0x40 := by decide +kernel
theorem test_wrfrm_tlm : (after (.wrfrm 7 0xFFFF1234) fresh).tlm = 0x1234 := by decide +kernel
theorem test_wrfrm_how :
    (after (.wrfrm 8 0xFFFFFFFF) fresh).how = 0x3FFFFF ∧
      (after (.wrfrm 8 0) { fresh with frameValid := true }).frameValid = false := by decide +kernel

/-! ## Bit Cursor (95_test_vectors section 2.3, examples of R121 to R133) -/

theorem test_sbClr : (after .sbClr { fresh with sb := v2 }).sb = [] := by decide
theorem test_sbPush : (after (.sbPush 0xA5 1) fresh).sb = [⟨0xA5, 1⟩] ∧ said (.sbPush 0xA5 1) fresh = answer .ok 1 := by
  decide +kernel
theorem test_sbPush_open : said (.sbPush 0x11 0) (cursor .decode v1 24) = answer .wrongMode 0 := by decide +kernel
theorem test_bcOpen_usepad : said (.bcOpen true) { fresh with sb := v2 } = answer .ok 18 ∧
    takeBits (after (.bcOpen true) { fresh with sb := v2 }).stream 0 18 = 0x291EF := by decide +kernel
theorem test_bcOpen_raw : (after (.bcOpen false) { fresh with sb := v2 }).stream = v1 := by decide +kernel
theorem test_bcOpenW : (after .bcOpenW { fresh with prev2 := 2 }).cmode = .encode ∧
    (after .bcOpenW { fresh with prev2 := 2 }).prev2 = 2 := by decide
theorem test_bcOpenC : (after .bcOpenC { fresh with prev2 := 2 }).cmode = .carry ∧
    (after .bcOpenC { fresh with prev2 := 2 }).prev2 = 0 := by decide
theorem test_bcClose : (after .bcClose (cursor .decode (strip v2 true) 14)).prev2 = 0b10 ∧
    (after .bcClose (cursor .decode (strip v2 true) 14)).stream = [] := by decide +kernel

/-- R126: closing at POS = 1 keeps one old bit. -/
theorem test_bcClose_at_one : (after .bcClose { cursor .carry v1 1 with prev2 := 0b10 }).prev2 = 0b01 := by decide +kernel
theorem test_bcPeek : said (.bcPeek 8) (cursor .decode v1 3) = answer .ok 0x29 ∧
    said (.bcPeek 21) (cursor .decode v1 3) = answer .ok 0x53CF0 := by decide +kernel
theorem test_bcPeek_short : said (.bcPeek 22) (cursor .decode v1 3) = answer .insufficientData 0 ∧
    said (.bcPeek 0) (cursor .decode v1 24) = answer .ok 0 := by decide +kernel
theorem test_bcAdv : said (.bcAdv 21) (cursor .decode v1 3) = answer .ok 24 ∧
    (after (.bcAdv 21) (cursor .decode v1 3)).pos = 24 := by decide +kernel
theorem test_bcAdv_beyond : said (.bcAdv 22) (cursor .decode v1 3) = answer .outOfRange 0 ∧
    (after (.bcAdv 22) (cursor .decode v1 3)).pos = 3 := by decide +kernel
theorem test_bcPos : said .bcPos (cursor .decode v1 24) = answer .ok 24 := by decide +kernel
theorem test_bcPut : (after (.bcPut 13 0xFFFFFABC) (cursor .encode (bitsOf 11 0x529) 11)).stream =
    bitsOfBytes [0xA5, 0x3A, 0xBC] := by decide +kernel
theorem test_bcPut_zero : said (.bcPut 0 0xFFFFFFFF) (cursor .encode (bitsOf 11 0x529) 11) = answer .ok 11 := by
  decide +kernel
theorem test_bcAppend : (after (.bcAppend 0x3C 1) (cursor .carry (bitsOf 7 0x52) 0)).stream = bitsOf 14 0x291E := by
  decide +kernel
theorem test_bcAppend_pos : (after (.bcAppend 0xFF 7) (cursor .carry (bitsOf 5 0x1E) 2)).pos = 2 ∧
    said (.bcAppend 0xFF 7) (cursor .carry (bitsOf 5 0x1E) 2) = answer .ok 6 := by decide +kernel
theorem test_bcDrop : (after .bcDrop (cursor .carry (bitsOf 14 0x291E) 9)).stream = bitsOf 5 0x1E ∧
    (after .bcDrop { cursor .carry (bitsOf 14 0x291E) 9 with prev2 := 3 }).prev2 = 0 := by decide +kernel
theorem test_bcDrop_nothing : said .bcDrop { cursor .carry [] 0 with prev2 := 1 } = answer .ok 0 ∧
    (after .bcDrop { cursor .carry [] 0 with prev2 := 1 }).prev2 = 1 := by decide +kernel
theorem test_bcRdb : said (.bcRdb 1) (cursor .decode (strip v2 true) 0) = answer .ok 0x7B ∧
    said (.bcRdb 2) (cursor .decode (strip v2 true) 0) = answer .ok 0xC0 := by decide +kernel
theorem test_bcRdb_beyond : said (.bcRdb 3) (cursor .decode (strip v2 true) 0) = answer .outOfRange 0 := by decide +kernel

/-! ## Parity Engine (95_test_vectors section 2.4) -/

theorem test_parComp : said (.parComp 0x022D2340) fresh = answer .ok 0x34 ∧ said (.parComp 0x0048D15A) fresh = answer .ok 0x28 := by
  decide +kernel
theorem test_parComp_carried : said (.parComp 0x03FFFFFF) fresh = answer .ok 0x3C ∧ said (.parComp 1) fresh = answer .ok 0x16 := by
  decide +kernel
theorem test_parVrfy : said (.parVrfy 0x8B48D0D0) fresh = answer .ok 1 ∧ said (.parVrfy 0xEDCBA95D) fresh = answer .ok 1 := by
  decide +kernel
theorem test_parVrfy_flipped : said (.parVrfy 0x8B48D050) fresh = answer .ok 0 ∧ said (.parVrfy 0x8B48D0D1) fresh = answer .ok 0 := by
  decide +kernel

/-! ## Subframe codec, Synchronizer, Stream Decoder (95_test_vectors sections 2.5 to 2.7) -/

/-- R208 to R210: the column of subframe bits, for a split field and the last field of each map. -/
theorem test_subframe_bits :
    ([⟨3, 1, 0⟩, ⟨8, 23, 16⟩, ⟨10, 23, 2⟩, ⟨10, 6, 2⟩, ⟨10, 15, 2⟩] : List Piece).map pieceSubframeBits =
      [(83, 84), (211, 218), (271, 292), (288, 292), (279, 292)] := by decide

theorem test_sfDec : (after .sfDec f1Cursor).frame = ⟨0x1234, 0x0CA5C3, f1Fld, 0x55555⟩ ∧
    (after .sfDec f1Cursor).pos = 300 := by decide +kernel

/-- Section 2.6, bit 63: word 3 fails and FLD0 changes. -/
theorem test_sfDec_corrupted :
    said .sfDec (cursor .decode (bitsOfBytes (f1Bytes.set 7 0x84)) 0) = answer .ok 1 ∧
    (after .sfDec (cursor .decode (bitsOfBytes (f1Bytes.set 7 0x84)) 0)).vflags = 0x55565 := by decide +kernel

theorem test_sfEnc : (after .sfEnc f1Source).stream = (bitsOfBytes f1Bytes).take 300 := by decide +kernel
theorem test_sfEnc_unsupported : said .sfEnc { f1Source with how := 0x280000 } = answer .unsupportedSubframe 0 := by
  decide +kernel

theorem test_syncScan : said .syncScan f1Cursor = answer .ok 300 ∧ (after .syncScan f1Cursor).statusBits = 0x019 := by
  decide +kernel
theorem test_syncScan_pending :
    said .syncScan (cursor .decode (bitsOfBytes [0x8B, 0x00, 0xFF]) 0) = answer .insufficientData 0 ∧
    (after .syncScan (cursor .decode (bitsOfBytes [0x8B, 0x00, 0xFF]) 0)).fsm = .tentativeLock := by decide +kernel

theorem test_decRaw : said .decRaw f1Staged = answer .ok 300 ∧ (after .decRaw f1Staged).statusBits = 0x018 := by
  decide +kernel
theorem test_decRaw_nothing :
    said .decRaw { fresh with sb := [⟨0x12, 0⟩, ⟨0x34, 0⟩, ⟨0x56, 0⟩] } = answer .insufficientData 17 ∧
    (after .decRaw { fresh with sb := [⟨0x80, 0⟩] }).statusBits = 0x020 := by decide +kernel

/-- Program P4, the first two bytes. -/
theorem test_decByte :
    said (.decByte 0xB4 1) (cursor .carry [] 0) = answer .insufficientData 0 ∧
    said (.decByte 0x2C 1) (cursor .carry (bitsOf 7 0x5A) 0) = answer .insufficientData 5 ∧
    (after (.decByte 0x2C 1) (cursor .carry (bitsOf 7 0x5A) 0)).statusBits = 0x047 := by decide +kernel

/-! ## Witnesses: a concrete state and operands for the hypotheses of each statement, each clause at a boundary of its range -/

/-- A stream that fills the store. -/
def full (m : CMode) : State := cursor m (List.replicate capBits false) 0

/-- A staging buffer that is full. -/
def fullBuffer : State := { fresh with sb := List.replicate capBytes ⟨0, 0⟩ }

/-- F1's view as a decode reads it. -/
def f1View : View := f1Cursor.view

theorem cap_300 : 300 ≤ capBits := by
  have := capBytes_bounds.1
  unfold capBits
  omega

theorem fresh_sound : fresh.Sound where
  pos_le := by decide
  len_le := by simp [fresh, State.build]
  sbn_le := by simp [fresh, State.build]
  closed := by decide
  encode_end := by decide
  thresh_range := by decide
  flags_legal := by intro w _ _; simp [fresh, State.build, flagOf]
  unchecked := by decide
  frame_supported := by decide
  consumed_le := by simp [fresh, State.build]

theorem test_witness_EncodeOfDecodeIsTheRequest :
    decode ⟨0x2700001E, 0x22D23434⟩ = .ok (.bcPut 30 0x22D23434) ∧ (Instr.bcPut 30 0x22D23434).usesArg = true := by
  decide +kernel

theorem test_witness_DecodePicksTheOnlyMatchingRow :
    (∃ row ∈ opcodeRows, (0x01000005 : Word) &&& row.mask = row.matchBits) ∧
    (∀ row ∈ opcodeRows, (0x00000000 : Word) &&& row.mask ≠ row.matchBits) := by decide +kernel

theorem test_witness_IllegalEncodingsAnswerBadCommand :
    (fresh.offer ⟨0x26000001, 0⟩).requests = ⟨0x26000001, 0⟩ :: [] ∧ (¬ ∃ i, decode ⟨0x26000001, 0⟩ = .ok i) ∧
    ((0 : BitVec 4).toNat = 0 ∧ 11 ≤ (11 : BitVec 4).toNat) ∧ 20 ≤ (20 : BitVec 5).toNat ∧ (6 : BitVec 5).toNat ≤ 6 ∧
    33 ≤ (33 : BitVec 24).toNat := by
  refine ⟨rfl, fun ⟨i, h⟩ => ?_, by decide, by decide, by decide, by decide⟩
  have e : decode ⟨0x26000001, 0⟩ = .error .nonzeroZeroField := by decide +kernel
  rw [e] at h
  cases h

theorem test_witness_StepRunsTheDecodedCommand :
    (fresh.offer ⟨0x10000000, 0⟩).requests = ⟨0x10000000, 0⟩ :: [] ∧ decode ⟨0x10000000, 0⟩ = .ok .sbClr ∧
    fresh.requests = [] := by decide +kernel

theorem test_witness_EachCommandAnswersOnlyItsStatuses :
    exec (.rdreg 20) fresh = .next (after (.rdreg 20) fresh) ∧ said (.rdreg 20) fresh = answer .badCommand 0 ∧
    said .bcPos fresh = answer .wrongMode 0 ∧ said (.bcPeek 1) (cursor .decode [] 0) = answer .insufficientData 0 ∧
    said (.bcAdv 1) (cursor .decode [] 0) = answer .outOfRange 0 ∧
    said .sfEnc { f1Source with how := 0x280000 } = answer .unsupportedSubframe 0 := by
  refine ⟨rfl, ?_⟩
  decide +kernel

theorem test_witness_ModeMatrixIsRespected :
    (Instr.bcPos).wf = true ∧ (fresh.built && decide (fresh.cmode ≠ .closed)) = false ∧
    ((cursor .encode [] 0).built && decide ((cursor .encode [] 0).cmode ≠ .closed)) = true := by decide

theorem test_witness_UnbuiltStateIsUnobservable :
    State.reset.built = false ∧ ({ State.reset with pos := 5, tlm := 7 } : State).built = false ∧
    State.reset.requests = ({ State.reset with pos := 5, tlm := 7 } : State).requests ∧
    (1 ≤ (1 : BitVec 4).toNat ∧ (10 : BitVec 4).toNat ≤ 10) ∧
    (∀ p th, Instr.init true 11 = .init p th → th.toNat = 0 ∨ 11 ≤ th.toNat) ∧
    (∀ p th, Instr.sbClr = .init p th → th.toNat = 0 ∨ 11 ≤ th.toNat) := by
  refine ⟨rfl, rfl, rfl, by decide, ?_, nofun⟩
  intro p th h
  cases h
  decide

theorem test_witness_ConfigurationIsImmutable :
    fresh.built = true ∧ ∀ p th, Instr.sbClr ≠ .init p th := ⟨rfl, nofun⟩

theorem test_witness_EachRegisterIsWrittenByItsCommandsOnly :
    (∀ p th, Instr.decRaw ≠ .init p th) ∧ (cursor .decode v1 24).pos ≤ (cursor .decode v1 24).stream.length :=
  ⟨nofun, by decide +kernel⟩

theorem test_witness_StepKeepsTheStateSound :
    fresh.Inv ∧ step (fresh.offer ⟨0x20000000, 0⟩) = .next (after (.bcOpen false) fresh) ∧
    (fresh.offer ⟨0x20000000, 0⟩).Inv := by
  refine ⟨fun _ => fresh_sound, rfl, fun _ => ?_⟩
  exact { fresh_sound with }

theorem test_witness_CapacityIsWithinItsBounds : fresh.Sound := fresh_sound

theorem test_witness_InitBuildsAFreshInstance :
    1 ≤ (1 : BitVec 4).toNat ∧ (10 : BitVec 4).toNat ≤ 10 ∧ (0 : BitVec 4).toNat = 0 ∧ 11 ≤ (11 : BitVec 4).toNat := by decide

theorem test_witness_RdregReadsEveryRegister :
    20 ≤ (20 : BitVec 5).toNat ∧ (19 : BitVec 5).toNat ≤ 19 ∧ State.reset.built = false ∧ fresh.built = true ∧
    (0 : BitVec 5).toNat = 0 ∧ (1 : BitVec 5).toNat = 1 ∧ (2 : BitVec 5).toNat = 2 ∧ (3 : BitVec 5).toNat = 3 ∧
    (4 : BitVec 5).toNat = 4 ∧ (5 : BitVec 5).toNat = 5 ∧ (6 : BitVec 5).toNat = 6 ∧ (7 : BitVec 5).toNat = 7 ∧
    (8 : BitVec 5).toNat = 8 ∧ (9 : BitVec 5).toNat = (0 : Fin 11).val + 9 ∧
    (19 : BitVec 5).toNat = (10 : Fin 11).val + 9 := by decide

theorem test_witness_WrfrmWritesOneFrameRegister :
    (6 : BitVec 5).toNat ≤ 6 ∧ 20 ≤ (20 : BitVec 5).toNat ∧ 7 ≤ (7 : BitVec 5).toNat ∧ (19 : BitVec 5).toNat ≤ 19 ∧
    State.reset.built = false ∧ fresh.built = true ∧ (8 : BitVec 5).toNat = 8 ∧
    (9 : BitVec 5).toNat = (0 : Fin 11).val + 9 ∧ (19 : BitVec 5).toNat = (10 : Fin 11).val + 9 := by decide

/-- A built instance without a cursor, and one with: the two mode clauses of SB.CLR, BC.OPEN, BC.OPENW, BC.OPENC, DEC.RAW. -/
theorem test_witness_SbClrEmptiesTheStagingBuffer :
    fresh.built = true ∧ fresh.cmode = .closed ∧
    ¬ ((cursor .carry [] 0).built = true ∧ (cursor .carry [] 0).cmode = .closed) ∧
    ¬ (State.reset.built = true ∧ State.reset.cmode = .closed) := by decide

theorem test_witness_SbPushAppendsOneEntry :
    fresh.built = true ∧ fresh.cmode = .closed ∧ fresh.sb.length < capBytes ∧ fullBuffer.built = true ∧
    fullBuffer.cmode = .closed ∧ capBytes ≤ fullBuffer.sb.length ∧
    ¬ ((cursor .decode [] 0).built = true ∧ (cursor .decode [] 0).cmode = .closed) := by
  have h := capBytes_bounds.1
  refine ⟨rfl, rfl, ?_, rfl, rfl, by simp [fullBuffer], by decide⟩
  simp [fresh, State.build]
  omega

theorem test_witness_StripMapsEveryDataBit :
    0 < v2.length ∧ 0 < 8 - v2[0].pad.toNat ∧ 2 < v2.length ∧ 3 < 8 - (if true then v2[2].pad.toNat else 0) := by decide

theorem test_witness_BcOpenMakesADecodeCursor :
    fresh.built = true ∧ fresh.cmode = .closed ∧
    ¬ ((cursor .decode [] 0).built = true ∧ (cursor .decode [] 0).cmode = .closed) := by decide

theorem test_witness_EmptyCursorsAreOpened :
    fresh.built = true ∧ fresh.cmode = .closed ∧
    ¬ ((cursor .encode [] 0).built = true ∧ (cursor .encode [] 0).cmode = .closed) := by decide

theorem test_witness_BcCloseEndsTheCursor :
    fresh.built = true ∧ fresh.cmode = .closed ∧ (cursor .encode [] 0).cmode = .encode ∧
    (cursor .decode v1 0).cmode = .decode ∧ (cursor .decode v1 0).pos = 0 ∧
    (0 < (cursor .carry v1 1).stream.length ∧ (cursor .carry v1 1).pos = 1) ∧
    (0 + 1 < (cursor .carry v1 2).stream.length ∧ (cursor .carry v1 2).pos = 0 + 2) ∧
    (22 + 1 < (cursor .decode v1 24).stream.length ∧ (cursor .decode v1 24).pos = 22 + 2) ∧ State.reset.built = false := by
  decide +kernel

theorem test_witness_BcPeekReadsWithoutAdvancing :
    33 ≤ (33 : BitVec 24).toNat ∧ (32 : BitVec 24).toNat ≤ 32 ∧
    ¬ (fresh.built = true ∧ (fresh.cmode = .decode ∨ fresh.cmode = .carry)) ∧ (cursor .decode v1 3).built = true ∧
    (cursor .decode v1 3).cmode = .decode ∧
    (cursor .decode v1 3).stream.length - (cursor .decode v1 3).pos < (22 : BitVec 24).toNat ∧
    (21 : BitVec 24).toNat ≤ (cursor .decode v1 3).stream.length - (cursor .decode v1 3).pos := by decide +kernel

theorem test_witness_BcAdvMovesThePosition :
    ¬ (fresh.built = true ∧ (fresh.cmode = .decode ∨ fresh.cmode = .carry)) ∧ (cursor .carry v1 3).built = true ∧
    (cursor .carry v1 3).cmode = .carry ∧
    (cursor .carry v1 3).stream.length < (cursor .carry v1 3).pos + (22 : BitVec 24).toNat ∧
    (cursor .carry v1 3).pos + (21 : BitVec 24).toNat ≤ (cursor .carry v1 3).stream.length := by decide +kernel

theorem test_witness_BcPosReturnsThePosition :
    (cursor .encode [] 0).built = true ∧ (cursor .encode [] 0).cmode ≠ .closed ∧ fresh.Sound ∧ fresh.cmode = .closed ∧
    (cursor .encode [] 0).Sound ∧ (cursor .encode [] 0).cmode = .encode ∧
    ¬ (fresh.built = true ∧ fresh.cmode ≠ .closed) := by
  refine ⟨rfl, by decide, fresh_sound, rfl, ?_, rfl, by decide⟩
  exact { fresh_sound with closed := by decide, encode_end := by decide, frame_supported := by decide, unchecked := by decide }

theorem test_witness_BcPutAppendsTheLowBits :
    33 ≤ (33 : BitVec 24).toNat ∧ (32 : BitVec 24).toNat ≤ 32 ∧ ¬ (fresh.built = true ∧ fresh.cmode = .encode) ∧
    (full .encode).built = true ∧ (full .encode).cmode = .encode ∧
    capBits < (full .encode).stream.length + (1 : BitVec 24).toNat ∧
    (full .encode).stream.length + (0 : BitVec 24).toNat ≤ capBits ∧
    (cursor .encode [] 0).stream.length + (32 : BitVec 24).toNat ≤ capBits := by
  have := cap_300
  refine ⟨by decide, by decide, by decide, rfl, rfl, ?_, ?_, ?_⟩
  all_goals simp [full, cursor, State.openCursor, State.seek]
  all_goals omega

theorem test_witness_BcAppendAddsTheDataBits :
    ¬ (fresh.built = true ∧ fresh.cmode = .carry) ∧ (full .carry).built = true ∧ (full .carry).cmode = .carry ∧
    capBits < (full .carry).stream.length + (8 - (7 : BitVec 3).toNat) ∧
    (cursor .carry [] 0).stream.length + (8 - (0 : BitVec 3).toNat) ≤ capBits ∧ (cursor .carry [] 0).stream = strip [] true := by
  have := cap_300
  refine ⟨by decide, rfl, rfl, ?_, ?_, rfl⟩
  all_goals simp [full, cursor, State.openCursor, State.seek]
  all_goals omega

theorem test_witness_BcDropDiscardsTheConsumedBits :
    ¬ (fresh.built = true ∧ fresh.cmode = .carry) ∧ (cursor .carry v1 0).built = true ∧ (cursor .carry v1 0).cmode = .carry ∧
    (cursor .carry v1 0).pos = 0 ∧ (0 < (cursor .carry v1 1).stream.length ∧ (cursor .carry v1 1).pos = 1) ∧
    (0 + 1 < (cursor .carry v1 2).stream.length ∧ (cursor .carry v1 2).pos = 0 + 2) ∧
    (cursor .carry v1 24).pos ≤ (cursor .carry v1 24).stream.length := by decide +kernel

theorem test_witness_BcRdbReadsAPackedByte :
    ¬ (fresh.built = true ∧ fresh.cmode ≠ .closed) ∧ (cursor .decode (strip v2 true) 0).built = true ∧
    (cursor .decode (strip v2 true) 0).cmode ≠ .closed ∧
    (cursor .decode (strip v2 true) 0).stream.length ≤ 8 * (3 : BitVec 24).toNat ∧
    8 * (2 : BitVec 24).toNat < (cursor .decode (strip v2 true) 0).stream.length := by decide +kernel

theorem test_witness_PeekSplitsAtEveryPoint :
    (cursor .decode v1 3).built = true ∧ (cursor .decode v1 3).cmode = .decode ∧
    (cursor .decode v1 3).pos ≤ (cursor .decode v1 3).stream.length ∧
    (8 : BitVec 24).toNat + (13 : BitVec 24).toNat = (21 : BitVec 24).toNat ∧ (21 : BitVec 24).toNat ≤ 32 ∧
    (cursor .decode v1 3).pos + (21 : BitVec 24).toNat ≤ (cursor .decode v1 3).stream.length := by decide +kernel

theorem test_witness_PaddedAndDenseStreamsAgree :
    (cursor .carry [] 0).built = true ∧ (cursor .carry [] 0).cmode = .carry ∧ (cursor .carry [] 0).stream = [] ∧
    (strip v2 true).length ≤ capBits ∧
    (let entries : List SBEntry := [⟨0xA5, 1⟩, ⟨0x80, 7⟩]
     let dense : List SBEntry := [⟨0xA5, 3⟩]
     (strip entries true).length = 8 * dense.length ∧
       ∀ (i : Nat) (h : i < dense.length), dense[i].byte = takeBits (strip entries true) (8 * i) 8) := by
  have h : (strip v2 true).length = 18 := by decide
  have := cap_300
  refine ⟨rfl, rfl, rfl, by omega, by decide, fun i hi => ?_⟩
  have : i = 0 := by simpa using hi
  subst this
  show (0xA5 : Byte) = _
  decide +kernel

theorem test_witness_PrevTwoBitsComeFromTheStreamOrTheCarry :
    (cursor .decode v1 0).cmode = .decode ∧ (cursor .encode v1 24).cmode = .encode ∧
    0 < (cursor .decode v1 0).stream.length ∧ 0 + 1 < (cursor .decode v1 0).stream.length ∧
    22 + 1 < (cursor .decode v1 0).stream.length := by decide +kernel

theorem test_witness_ParCompReturnsTheParity : fresh.built = true ∧ State.reset.built = false := by decide

theorem test_witness_ParVrfyChecksTheWord : fresh.built = true ∧ State.reset.built = false := by decide

theorem test_witness_EncodedWordsVerify :
    (2 : BitVec 2).getLsbD 0 = false ∧ (1 : BitVec 2).getLsbD 0 = true := by decide

theorem test_witness_ParityPropertiesHold :
    0 < 24 ∧ 23 < 24 ∧ 29 < 30 ∧ wordOk 0x22D23434 0 = true ∧ (0 : BitVec 2) ≠ 1 ∧ (0 : BitVec 24).extractLsb' 0 2 = 0 := by
  decide +kernel

theorem test_witness_SubframeWordsStandBackToBack : 0 + 300 ≤ f1View.stream.length ∧ 4 + 300 ≤ f1View.stream.length := by
  decide +kernel

theorem test_witness_ValidityFlagsOfADecode : f1View.parityEn = true ∧ ({ f1View with parityEn := false } : View).parityEn = false := by
  decide

theorem test_witness_FixedWordsOfADecode :
    (let c := decodeSubframe ⟨true, 1, 0, List.replicate 300 false⟩ 0
     ¬ (c.sfid = 1 ∨ c.sfid = 2 ∨ c.sfid = 3)) := by decide +kernel

theorem test_witness_SfDecDecodesAtThePosition :
    ¬ (fresh.built = true ∧ (fresh.cmode = .decode ∨ fresh.cmode = .carry)) ∧ f1Cursor.built = true ∧ f1Cursor.cmode = .decode ∧
    (f1Cursor.seek 5).stream.length - (f1Cursor.seek 5).pos < 300 ∧ 300 ≤ (f1Cursor.seek 4).stream.length - (f1Cursor.seek 4).pos ∧
    (decodeSubframe ⟨true, 1, 0, f1Cursor.stream⟩ 0).sfid = 1 ∧
    ¬ ((decodeSubframe ⟨true, 1, 0, List.replicate 300 false⟩ 0).sfid = 1 ∨
      (decodeSubframe ⟨true, 1, 0, List.replicate 300 false⟩ 0).sfid = 2 ∨
      (decodeSubframe ⟨true, 1, 0, List.replicate 300 false⟩ 0).sfid = 3) := by decide +kernel

theorem test_witness_SolvedWordsEndInZeros : (0x52E1A4 : BitVec 24).extractLsb' 0 2 = 0 := by decide

theorem test_witness_SfEncAppendsOneSubframe :
    ¬ (fresh.built = true ∧ fresh.cmode = .encode) ∧ (full .encode).built = true ∧ (full .encode).cmode = .encode ∧
    capBits < (full .encode).stream.length + 300 ∧ f1Source.stream.length + 300 ≤ capBits ∧
    fieldMap ((0x280000 : BitVec 22).extractLsb' 19 3) = none ∧ fieldMap (f1Source.how.extractLsb' 19 3) = some fieldMap1 := by
  have := cap_300
  refine ⟨by decide, rfl, rfl, ?_, ?_, by decide, by decide⟩
  all_goals simp [f1Source, full, cursor, State.openCursor, State.seek]
  all_goals omega

theorem test_witness_DecodingAnEncodedFrameGivesTheFrame :
    f1Source.built = true ∧ f1Source.cmode = .encode ∧ f1Source.stream.length + 300 ≤ capBits ∧
    fieldMap (sfidOfHow f1Source.how) = some fieldMap1 ∧
    (∀ e ∈ fieldMap1, f1Source.fld[e.reg] =
      (if e.signed then (f1Source.fld[e.reg].setWidth (piecesWidth e.pieces)).signExtend 32
       else (f1Source.fld[e.reg].setWidth (piecesWidth e.pieces)).setWidth 32)) ∧
    (∀ k : Fin 11, (∀ e ∈ fieldMap1, e.reg ≠ k) → f1Source.fld[k] = 0) ∧ f1Cursor.built = true ∧ f1Cursor.cmode = .decode ∧
    (f1Cursor.stream.drop f1Cursor.pos).take 300 = (after .sfEnc f1Source).stream.drop f1Source.stream.length ∧
    prev2At f1Cursor.prev2 f1Cursor.stream f1Cursor.pos = prev2At 0 f1Source.stream f1Source.stream.length := by
  have := cap_300
  refine ⟨rfl, rfl, ?_, by decide, by decide +kernel, by decide +kernel, rfl, rfl, by decide +kernel, by decide +kernel⟩
  simp [f1Source, cursor, State.openCursor, State.seek]
  omega

theorem test_witness_SyncScanFindsTheFirstAcceptedSubframe :
    ¬ (fresh.built = true ∧ (fresh.cmode = .decode ∨ fresh.cmode = .carry)) ∧ f1Cursor.built = true ∧ f1Cursor.cmode = .decode ∧
    (cursor .carry v1 0).cmode = .carry := by decide

theorem test_witness_ScanStaysWithinTheStream :
    f1Cursor.built = true ∧ f1Cursor.cmode = .decode ∧ f1Cursor.pos ≤ f1Cursor.stream.length ∧
    (after .syncScan f1Cursor).frameValid = true ∧ (after .syncScan (cursor .decode v1 24)).frameValid = false ∧
    (after .syncScan (cursor .decode v1 24)).fsm = .searching := by decide +kernel

theorem test_witness_ScansContinueWhereTheyStopped :
    (scanFrom ⟨true, 1, 0, []⟩ 0).frame = none ∧ (scanFrom ⟨true, 1, 0, v1⟩ 0).frame = none := by decide +kernel

theorem test_witness_ScansDependOnTheStreamAheadOnly : 0 ≤ v1.length ∧ 24 ≤ v1.length := by decide +kernel

theorem test_witness_DecRawIsOpenScanClose :
    fresh.built = true ∧ fresh.cmode = .closed ∧
    ¬ ((cursor .carry [] 0).built = true ∧ (cursor .carry [] 0).cmode = .closed) := by decide

theorem test_witness_DecByteIsAppendScanDrop :
    ¬ (fresh.built = true ∧ fresh.cmode = .carry) ∧ (full .carry).built = true ∧ (full .carry).cmode = .carry ∧
    capBits < (full .carry).stream.length + (8 - (7 : BitVec 3).toNat) ∧
    (cursor .carry [] 0).stream.length + (8 - (0 : BitVec 3).toNat) ≤ capBits := by
  have := cap_300
  refine ⟨by decide, rfl, rfl, ?_, ?_⟩
  all_goals simp [full, cursor, State.openCursor, State.seek]
  all_goals omega

theorem test_witness_StreamDecodesHaveTwoResponses :
    (fresh.built = true ∧ fresh.cmode = .closed) ∧ (cursor .carry [] 0).built = true ∧ (cursor .carry [] 0).cmode = .carry ∧
    (cursor .carry [] 0).stream.length + (8 - (0 : BitVec 3).toNat) ≤ capBits := by
  have := cap_300
  refine ⟨by decide, rfl, rfl, ?_⟩
  simp [cursor, State.openCursor, State.seek]
  omega

/-- The longest cursor, and one on which the command accepts a frame. -/
theorem test_witness_DecByteKeepsTheCursorShort :
    (let s := cursor .carry (List.replicate 299 false) 0
     s.built = true ∧ s.cmode = .carry ∧ s.pos = 0 ∧ s.stream.length ≤ 299) ∧
    said (.decByte 0 7) (cursor .carry ((bitsOfBytes f1Bytes).take 299) 0) = answer .ok 300 := by decide +kernel

theorem test_witness_BothModesDecodeTheSameFrames :
    (fresh.built = true ∧ fresh.cmode = .closed) ∧
    (cursor .carry [] 0).built = true ∧ (cursor .carry [] 0).cmode = .carry ∧ (cursor .carry [] 0).stream = [] ∧
    (cursor .carry [] 0).pos = 0 ∧ (cursor .carry [] 0).prev2 = 0 ∧ fresh.prev2 = 0 ∧
    fresh.parityEn = (cursor .carry [] 0).parityEn ∧ fresh.thresh = (cursor .carry [] 0).thresh := by decide

/-- A success, a failure and an exhaustion. -/
theorem test_witness_StatusCodesAreTheTable :
    exec .sbClr fresh = .next (after .sbClr fresh) ∧ (after .sbClr fresh).response = some ⟨.ok, 0⟩ ∧
    exec .bcPos fresh = .next (after .bcPos fresh) ∧ (after .bcPos fresh).response = some ⟨.wrongMode, 0⟩ ∧
    exec .syncScan (cursor .decode v1 0) = .next (after .syncScan (cursor .decode v1 0)) ∧
    (after .syncScan (cursor .decode v1 0)).response = some ⟨.insufficientData, 17⟩ := by
  refine ⟨rfl, rfl, rfl, rfl, rfl, ?_⟩
  decide +kernel

end Sys2Proof.Tests
end

/-! ## Proofs for 00_scope: the step and the capacity -/

namespace Sys2Proof.Machine

/-- A legal request leaves the port and its command runs on the state without it (R3). -/
theorem step_of_decode_ok {s : State} {r : Request} {rest : List Request} {i : Instr} (hreq : s.requests = r :: rest)
    (hdec : decode r = .ok i) : step s = exec i { s with requests := rest } := by
  simp only [step, takeRequest_cons s r rest hreq, hdec]

/-- With an empty request port the core is idle (60_exceptions section 8, log entry 1). -/
theorem step_of_no_request {s : State} (hreq : s.requests = []) : step s = .next s := by
  simp only [step, takeRequest_nil s hreq]

/-- Settles O6: one equation of `step` for each answer of the request port. -/
theorem stepRunsTheDecodedCommand : Obligations.StepRunsTheDecodedCommand :=
  ⟨fun _ _ _ _ hreq hdec => step_of_decode_ok hreq hdec, fun _ hreq => step_of_no_request hreq⟩

/-- The length of a sound state's stream fits 24 bits: it is at most the capacity in bits (R39 item 1, R7). -/
theorem State.Sound.length_stream_lt {s : State} (h : s.Sound) : s.stream.length < 2 ^ 24 :=
  h.len_le.trans_lt capBits_lt

/-- POS is at most LEN, so it fits 24 bits as well (R39 item 1). -/
theorem State.Sound.pos_lt {s : State} (h : s.Sound) : s.pos < 2 ^ 24 :=
  h.pos_le.trans_lt h.length_stream_lt

/-- CONSUMED was a position when it was written, so it fits 24 bits too (R32). -/
theorem State.Sound.consumed_lt {s : State} (h : s.Sound) : s.consumed < 2 ^ 24 :=
  h.consumed_le.trans_lt capBits_lt

/-- Settles O15: the bounds of R7, and the three positions of a sound state through the capacity in bits. -/
theorem capacityIsWithinItsBounds : Obligations.CapacityIsWithinItsBounds :=
  ⟨capBytes_bounds.1, capBytes_bounds.2, fun _ h => ⟨h.pos_lt, h.length_stream_lt, h.consumed_lt⟩⟩

end Sys2Proof.Machine

/-! ## Proofs for 10_state: who writes what, the immutable configuration, the invariants of R39

Everything here goes through one inversion lemma: `exec_hasEffect` says once, for every command but INIT, which writes it can
do and under which checks. -/

namespace Sys2Proof.Machine

/-! ### What a command can do -/

/-- `Effect s i u`: apart from its response, command i in state s can leave u. One constructor for each command that writes,
with the checks it has then passed; INIT, which writes everything, stands apart (`exec_init_cases`). -/
inductive Effect (s : State) : Instr → State → Prop
  /-- A command that fails (R290) or only reads. -/
  | unchanged {i : Instr} : Effect s i s
  | wrfrm {reg : BitVec 5} {value : Word} {f : FrameReg} (hb : s.built = true) (hf : FrameReg.ofNumber reg = some f) :
      Effect s (.wrfrm reg value) (s.writeFrameReg f value)
  | sbClr (hb : s.built = true) (hm : s.cmode.noCursor = true) : Effect s .sbClr s.clearStaging
  | sbPush {byte : Byte} {pad : BitVec 3} (hb : s.built = true) (hm : s.cmode.noCursor = true)
      (hroom : s.sb.length < capBytes) : Effect s (.sbPush byte pad) (s.pushStaging byte pad)
  | bcOpen {usepad : Bool} (hb : s.built = true) (hm : s.cmode.noCursor = true) :
      Effect s (.bcOpen usepad) (s.openCursor .decode (strip s.sb usepad))
  | bcOpenW (hb : s.built = true) (hm : s.cmode.noCursor = true) : Effect s .bcOpenW (s.openCursor .encode [])
  | bcOpenC (hb : s.built = true) (hm : s.cmode.noCursor = true) : Effect s .bcOpenC ((s.openCursor .carry []).setPrev2 0)
  | bcClose (hb : s.built = true) : Effect s .bcClose s.closeCursor
  | bcAdv {n : BitVec 24} (hb : s.built = true) (hm : s.cmode.readable = true) (hn : s.pos + n.toNat ≤ s.stream.length) :
      Effect s (.bcAdv n) (s.seek (s.pos + n.toNat))
  | bcPut {n : BitVec 24} {value : Word} (hb : s.built = true) (hm : s.cmode.writable = true)
      (hfit : s.fits n.toNat = true) : Effect s (.bcPut n value) (s.appendBits (putBits n.toNat value)).seekEnd
  | bcAppend {byte : Byte} {pad : BitVec 3} (hb : s.built = true) (hm : s.cmode.carried = true)
      (hfit : s.fits (8 - pad.toNat) = true) : Effect s (.bcAppend byte pad) (s.appendBits (dataBits byte pad))
  | bcDrop (hb : s.built = true) (hm : s.cmode.carried = true) : Effect s .bcDrop s.dropConsumed
  | syncScan (hb : s.built = true) (hm : s.cmode.readable = true) : Effect s .syncScan s.scan
  | sfDec (hb : s.built = true) (hm : s.cmode.readable = true) (hbits : subframeBits ≤ s.stream.length - s.pos)
      (hsup : supported (decodeSubframe s.view s.pos).sfid = true) :
      Effect s .sfDec ((s.storeFrame (decodeSubframe s.view s.pos)).seek (s.pos + subframeBits))
  | sfEnc {m : List FieldEntry} (hb : s.built = true) (hm : s.cmode.writable = true) (hfit : s.fits subframeBits = true)
      (hmap : fieldMap (sfidOfHow s.how) = some m) : Effect s .sfEnc (s.encodeFrame m)
  | decRaw (hb : s.built = true) (hm : s.cmode.noCursor = true) : Effect s .decRaw s.openRaw.scan.closeCursor
  | decByte {byte : Byte} {pad : BitVec 3} (hb : s.built = true) (hm : s.cmode.carried = true)
      (hfit : s.fits (8 - pad.toNat) = true) : Effect s (.decByte byte pad) (s.appendByte byte pad).scan.dropConsumed

/-- The outcome k of command i in state s is a response after one of the command's effects. -/
def HasEffect (i : Instr) (s : State) (k : Result) : Prop :=
  ∃ (u : State) (st : Status) (res : Word), k = .next (u.answer st res) ∧ Effect s i u

theorem HasEffect.of_finish {i : Instr} {s u : State} {st : Status} {res : Word} (h : Effect s i u) :
    HasEffect i s (finish u st res) := ⟨u, st, res, rfl, h⟩

/-- A failing command writes nothing (R290). -/
theorem HasEffect.of_fail {i : Instr} {s : State} {st : Status} : HasEffect i s (fail s st) := .of_finish .unchanged

theorem HasEffect.of_ite {i : Instr} {s : State} {c : Prop} [Decidable c] {k k' : Result} (hpos : c → HasEffect i s k)
    (hneg : ¬ c → HasEffect i s k') : HasEffect i s (if c then k else k') := by
  split
  next h => exact hpos h
  next h => exact hneg h

/-- Behind the mode check the command may suppose BUILT = 1 and a legal mode (R120). -/
theorem HasEffect.of_whenLegal {i : Instr} {s : State} {legal : CMode → Bool} {k : Result}
    (h : s.built = true → legal s.cmode = true → HasEffect i s k) : HasEffect i s (whenLegal s legal k) := by
  obtain ⟨hb, hm, hk⟩ | ⟨-, hk⟩ := whenLegal_cases s legal k <;> rw [hk]
  · exact h hb hm
  · exact .of_fail

/-- Every command but INIT ends in a response after one of its effects: the inversion lemma of `exec`. -/
theorem exec_hasEffect (i : Instr) (s : State) (hi : ∀ p th, i ≠ .init p th) : HasEffect i s (exec i s) := by
  cases i with
  | init p th => exact absurd rfl (hi p th)
  | rdreg reg =>
    simp only [exec, execRdreg]
    split
    · exact .of_whenLegal fun _ _ => .of_finish .unchanged
    · exact .of_fail
  | wrfrm reg value =>
    simp only [exec, execWrfrm]
    split
    next f hf => exact .of_whenLegal fun hb _ => .of_finish (.wrfrm hb hf)
    next => exact .of_fail
  | sbClr => exact .of_whenLegal fun hb hm => .of_finish (.sbClr hb hm)
  | sbPush byte pad =>
    exact .of_whenLegal fun hb hm => .of_ite (fun h => .of_finish (.sbPush hb hm h)) fun _ => .of_fail
  | bcOpen usepad => exact .of_whenLegal fun hb hm => .of_finish (.bcOpen hb hm)
  | bcOpenW => exact .of_whenLegal fun hb hm => .of_finish (.bcOpenW hb hm)
  | bcOpenC => exact .of_whenLegal fun hb hm => .of_finish (.bcOpenC hb hm)
  | bcClose => exact .of_whenLegal fun hb _ => .of_finish (.bcClose hb)
  | bcPeek n =>
    exact .of_ite (fun _ => .of_whenLegal fun _ _ => .of_ite (fun _ => .of_finish .unchanged) fun _ => .of_fail)
      fun _ => .of_fail
  | bcAdv n => exact .of_whenLegal fun hb hm => .of_ite (fun h => .of_finish (.bcAdv hb hm h)) fun _ => .of_fail
  | bcPos => exact .of_whenLegal fun _ _ => .of_finish .unchanged
  | bcPut n value =>
    exact .of_ite (fun _ => .of_whenLegal fun hb hm => .of_ite (fun h => .of_finish (.bcPut hb hm h)) fun _ => .of_fail)
      fun _ => .of_fail
  | bcAppend byte pad =>
    exact .of_whenLegal fun hb hm => .of_ite (fun h => .of_finish (.bcAppend hb hm h)) fun _ => .of_fail
  | bcDrop => exact .of_whenLegal fun hb hm => .of_finish (.bcDrop hb hm)
  | bcRdb idx => exact .of_whenLegal fun _ _ => .of_ite (fun _ => .of_finish .unchanged) fun _ => .of_fail
  | parComp operand => exact .of_whenLegal fun _ _ => .of_finish .unchanged
  | parVrfy operand => exact .of_whenLegal fun _ _ => .of_finish .unchanged
  | syncScan => exact .of_whenLegal fun hb hm => .of_finish (.syncScan hb hm)
  | sfDec =>
    exact .of_whenLegal fun hb hm => .of_ite
      (fun hbits => .of_ite (fun hsup => .of_finish (.sfDec hb hm hbits hsup)) fun _ => .of_fail) fun _ => .of_fail
  | sfEnc =>
    refine .of_whenLegal fun hb hm => .of_ite (fun hfit => ?_) fun _ => .of_fail
    split
    next m hmap => exact .of_finish (.sfEnc hb hm hfit hmap)
    next => exact .of_fail
  | decRaw => exact .of_whenLegal fun hb hm => .of_finish (.decRaw hb hm)
  | decByte byte pad =>
    exact .of_whenLegal fun hb hm => .of_ite (fun hfit => .of_finish (.decByte hb hm hfit)) fun _ => .of_fail

/-- INIT builds the core when THRESH has a meaning, and fails with BadCommand otherwise (R260). -/
theorem exec_init_cases (p : Bool) (th : BitVec 4) (s : State) :
    (threshLegal th = true ∧ exec (.init p th) s = .next ((s.build p th).answer .ok 0)) ∨
      (threshLegal th = false ∧ exec (.init p th) s = .next (s.answer .badCommand 0)) := by
  cases h : threshLegal th
  · exact .inr ⟨rfl, by simp [exec, execInit, h]⟩
  · exact .inl ⟨rfl, by simp [exec, execInit, h]⟩

/-! ### Who writes what

One lemma per register: each effect is an operation whose law says that it keeps the register, or it belongs to a command the
rule names. -/

section Writers

variable {s u : State} {i : Instr}

/-- No effect writes BUILT or the configuration (R22, R23, R263). -/
theorem Effect.config_eq (h : Effect s i u) : u.built = s.built ∧ u.parityEn = s.parityEn ∧ u.thresh = s.thresh := by
  cases h <;> simp [State.scan, State.openRaw, State.appendByte]

/-- The staging buffer (R30). -/
theorem Effect.sb_writers (h : Effect s i u) : u.sb = s.sb ∨ i = .sbClr ∨ ∃ b p, i = .sbPush b p := by
  cases h <;> simp [State.scan, State.openRaw, State.appendByte]

/-- The Synchronizer's registers FSM, CONSUMED, UNSUP_SEEN and PARREJ_SEEN (R27, R32, R38). -/
theorem Effect.synchronizer_writers (h : Effect s i u) :
    (u.fsm = s.fsm ∧ u.consumed = s.consumed ∧ u.unsupSeen = s.unsupSeen ∧ u.parrejSeen = s.parrejSeen) ∨
      i = .syncScan ∨ i = .decRaw ∨ ∃ b p, i = .decByte b p := by
  cases h <;> simp

/-- PREV2 (R28). -/
theorem Effect.prev2_writers (h : Effect s i u) :
    u.prev2 = s.prev2 ∨ i = .bcOpenC ∨ i = .bcClose ∨ i = .bcDrop ∨ i = .decRaw ∨ ∃ b p, i = .decByte b p := by
  cases h <;> simp [State.scan]

/-- VFLAGS (R36). -/
theorem Effect.vflags_writers (h : Effect s i u) :
    u.vflags = s.vflags ∨ i = .sfDec ∨ i = .syncScan ∨ i = .decRaw ∨ ∃ b p, i = .decByte b p := by
  cases h <;> simp

/-- TLM, HOW and FLD (R21) and FRAME_VALID (R37). -/
theorem Effect.frame_writers (h : Effect s i u) :
    (u.tlm = s.tlm ∧ u.how = s.how ∧ u.fld = s.fld ∧ u.frameValid = s.frameValid) ∨
      (∃ r v, i = .wrfrm r v) ∨ i = .sfDec ∨ i = .syncScan ∨ i = .decRaw ∨ ∃ b p, i = .decByte b p := by
  cases h <;> simp

/-- The stream store (R31). -/
theorem Effect.stream_writers (h : Effect s i u) :
    u.stream = s.stream ∨ (∃ pad, i = .bcOpen pad) ∨ i = .bcOpenW ∨ i = .bcOpenC ∨ i = .bcClose ∨
      (∃ n v, i = .bcPut n v) ∨ (∃ b p, i = .bcAppend b p) ∨ i = .bcDrop ∨ i = .sfEnc ∨ i = .decRaw ∨ ∃ b p, i = .decByte b p := by
  cases h <;> simp [State.scan]

/-- POS (R25). -/
theorem Effect.pos_writers (h : Effect s i u) :
    u.pos = s.pos ∨ (∃ pad, i = .bcOpen pad) ∨ i = .bcOpenW ∨ i = .bcOpenC ∨ i = .bcClose ∨
      (∃ n, i = .bcAdv n) ∨ (∃ n v, i = .bcPut n v) ∨ i = .bcDrop ∨ i = .sfDec ∨ i = .sfEnc ∨ i = .syncScan ∨ i = .decRaw ∨
      ∃ b p, i = .decByte b p := by
  cases h <;> simp

/-- CMODE (R24): DEC.RAW opens and closes its cursor in mode Closed, so it keeps the mode. -/
theorem Effect.cmode_writers (h : Effect s i u) :
    u.cmode = s.cmode ∨ (∃ pad, i = .bcOpen pad) ∨ i = .bcOpenW ∨ i = .bcOpenC ∨ i = .bcClose := by
  cases h with
  | decRaw hb hm => exact .inl (by simp [(noCursor_iff _).mp hm])
  | _ => simp [State.scan, State.appendByte]

/-- A scan moves POS forward, to LEN at most (R185 item 2). -/
theorem scan_pos_bounds (hp : s.pos ≤ s.stream.length) : s.pos ≤ s.scan.pos ∧ s.scan.pos ≤ s.stream.length := by
  rw [State.scan, State.finishScan_pos]
  exact scanLoop_bounds s.view _ s.pos false false hp

/-- POS moves forward or back to 0 (R25). -/
theorem Effect.pos_forward (h : Effect s i u) (hp : s.pos ≤ s.stream.length) : s.pos ≤ u.pos ∨ u.pos = 0 := by
  cases h with
  | bcPut | sfEnc => exact .inl (by simp; omega)
  | syncScan => exact .inl (scan_pos_bounds hp).1
  | _ => simp

end Writers

/-- Settles O11: INIT sets BUILT or fails, and no effect of another command writes BUILT or the configuration. -/
theorem configurationIsImmutable : Obligations.ConfigurationIsImmutable := by
  intro i s
  by_cases hi : ∃ p th, i = .init p th
  · obtain ⟨p, th, rfl⟩ := hi
    obtain ⟨-, hexec⟩ | ⟨-, hexec⟩ := exec_init_cases p th s
    · exact ⟨_, hexec, fun _ => rfl, fun hne => absurd rfl (hne p th)⟩
    · exact ⟨_, hexec, id, fun hne => absurd rfl (hne p th)⟩
  · obtain ⟨u, st, res, hexec, heff⟩ := exec_hasEffect i s fun p th h => hi ⟨p, th, h⟩
    exact ⟨_, hexec, fun hb => heff.config_eq.1.trans hb, fun _ => heff.config_eq⟩

/-- Settles O12: the writers of each register, gathered over the one effect the command had. -/
theorem eachRegisterIsWrittenByItsCommandsOnly : Obligations.EachRegisterIsWrittenByItsCommandsOnly := by
  intro i s hi
  obtain ⟨u, st, res, hexec, heff⟩ := exec_hasEffect i s hi
  exact ⟨_, hexec, heff.sb_writers, heff.synchronizer_writers, heff.prev2_writers, heff.vflags_writers, heff.frame_writers,
    heff.stream_writers, heff.pos_writers, heff.pos_forward, heff.cmode_writers, heff.config_eq⟩

/-! ### The frame registers of a decode -/

/-- The flag of word j + 1 is entry j of the packed list (R202). -/
theorem flagOf_packFlags (flags : List (BitVec 2)) (j : Nat) (hj : j < flags.length) (hw : j < 10) :
    flagOf (packFlags flags) (j + 1) = flags[j] := by
  induction flags generalizing j with
  | nil => simp at hj
  | cons f flags ih =>
    have hpack : packFlags (f :: flags) = (packFlags flags <<< 2) ||| f.setWidth 20 := rfl
    apply BitVec.eq_of_getLsbD_eq
    intro k hk
    cases j with
    | zero =>
      have hlow : k < 20 := by omega
      simp [flagOf, hpack, hk, hlow]
    | succ j =>
      have hrest := congrArg (BitVec.getLsbD · k) (ih j (by simpa using hj) (by omega))
      have hshift : 2 * (j + 1) + k - 2 = 2 * j + k := by omega
      have hin : 2 * (j + 1) + k < 20 := by omega
      have hin' : 2 * j + k < 20 := by omega
      have habove : ¬ 2 * (j + 1) + k < 2 := by omega
      have hf : f.getLsbD (2 * (j + 1) + k) = false := BitVec.getLsbD_of_ge _ _ (by omega)
      simpa [flagOf, hpack, hk, hin, hin', hshift, habove, hf] using hrest

/-- No word of a decode has the unused flag value 3 (R36). -/
theorem decodeSubframe_flagOf_ne_three (v : View) (p w : Nat) (hlo : 1 ≤ w) (hhi : w ≤ 10) :
    flagOf (decodeSubframe v p).vflags w ≠ 3 := by
  obtain ⟨j, rfl⟩ := Nat.exists_eq_add_of_le' hlo
  have hflag : flagOf (decodeSubframe v p).vflags (j + 1) = validityFlag v.parityEn (okAt v p (j + 1)) := by
    simp only [decodeSubframe]
    rw [flagOf_packFlags _ j (by simp [flagsAt]; omega) (by omega)]
    simp [flagsAt]
  rw [hflag]
  cases v.parityEn <;> cases okAt v p (j + 1) <;> decide

/-- With parity off every word of a decode is unchecked (R202). -/
theorem decodeSubframe_vflags_of_parity_off (v : View) (p : Nat) (hoff : v.parityEn = false) :
    (decodeSubframe v p).vflags = 0 := by
  have hflags : flagsAt v p = List.replicate 10 0 := by simp [flagsAt, validityFlag, hoff]
  simp only [decodeSubframe, hflags]
  decide

/-- HOW holds the identifier of the Handover Word it was cut from (R34, R204). -/
theorem sfidOfHow_howOf (d2 : BitVec 24) : sfidOfHow (howOf d2) = sfidOf d2 := by
  apply BitVec.eq_of_getLsbD_eq
  intro k hk
  have hcut : (sfidOfHow (howOf d2)).getLsbD k =
      @BitVec.getLsbD (3 + 1 + 1 + 17)
        (sfidOf d2 ++ d2.extractLsb' 5 1 ++ d2.extractLsb' 6 1 ++ d2.extractLsb' 7 17) (19 + k) := by
    simp [sfidOfHow, howOf, hk]
  rw [hcut, BitVec.getLsbD_append, BitVec.getLsbD_append, BitVec.getLsbD_append, if_neg (by omega), if_neg (by omega),
    if_neg (by omega)]
  congr 1
  omega

/-- A scan with a frame is the same scan without it, then the frame stored (R181). -/
theorem finishScan_some (s : State) {e : ScanEnd} {c : Candidate} (h : e.frame = some c) :
    s.finishScan e = (s.finishScan { e with frame := none }).storeFrame c := by
  simp [State.finishScan, h]

/-! ### Every operation keeps R39 -/

theorem readable_ne {m : CMode} (h : m.readable = true) : m ≠ .closed ∧ m ≠ .encode := by
  cases m <;> simp [CMode.readable] at h ⊢

theorem readable_of_carried {m : CMode} (h : m.carried = true) : m.readable = true :=
  (readable_iff m).mpr (.inr ((carried_iff m).mp h))

theorem State.build_sound (s : State) (p : Bool) {th : BitVec 4} (hth : threshLegal th = true) : (s.build p th).Sound where
  pos_le := Nat.le_refl 0
  len_le := Nat.zero_le _
  sbn_le := Nat.zero_le _
  closed _ := ⟨rfl, rfl⟩
  encode_end _ := rfl
  thresh_range := by simpa [threshLegal] using hth
  flags_legal w _ _ := by simp [flagOf]
  unchecked _ := rfl
  frame_supported h := by simp at h
  consumed_le := Nat.zero_le _

namespace State.Sound

variable {s : State}

theorem answer (h : s.Sound) (st : Status) (res : Word) : (s.answer st res).Sound := { h with }

theorem setRequests (h : s.Sound) (rs : List Request) : ({ s with requests := rs } : State).Sound := { h with }

theorem setPrev2 (h : s.Sound) (v : BitVec 2) : (s.setPrev2 v).Sound := { h with }

theorem clearStaging (h : s.Sound) : s.clearStaging.Sound := { h with sbn_le := Nat.zero_le _ }

theorem pushStaging (h : s.Sound) (byte : Byte) (pad : BitVec 3) (hroom : s.sb.length < capBytes) :
    (s.pushStaging byte pad).Sound := { h with sbn_le := by simpa using hroom }

/-- WRFRM may leave any identifier in HOW, but it clears FRAME_VALID (R262). -/
theorem writeFrameReg (h : s.Sound) (f : FrameReg) (value : Word) : (s.writeFrameReg f value).Sound := by
  cases f <;> exact { h with frame_supported := nofun }

/-- A cursor over bits that fit the store, empty in the two modes in which POS stays at LEN (R123 to R126). -/
theorem openCursor (h : s.Sound) {m : CMode} {bits : List Bool} (hlen : bits.length ≤ capBits)
    (hempty : m = .closed ∨ m = .encode → bits = []) : (s.openCursor m bits).Sound :=
  { h with
    pos_le := Nat.zero_le _
    len_le := hlen
    closed := fun hm => ⟨hempty (.inl hm), rfl⟩
    encode_end := fun hm => by simp [hempty (.inr hm)] }

theorem openEmpty (h : s.Sound) (m : CMode) : (s.openCursor m []).Sound := h.openCursor (Nat.zero_le _) fun _ => rfl

/-- The stripped staging buffer fits the stream store: at most 8 bits of each of at most CAP_BYTES entries (R62, R68). -/
theorem openStaged (h : s.Sound) (usepad : Bool) : (s.openCursor .decode (strip s.sb usepad)).Sound := by
  refine h.openCursor ?_ (by simp)
  calc (strip s.sb usepad).length ≤ 8 * s.sb.length := length_strip_le s.sb usepad
    _ ≤ capBits := Nat.mul_le_mul_left 8 h.sbn_le

theorem closeCursor (h : s.Sound) : s.closeCursor.Sound := by
  unfold State.closeCursor
  split
  · exact (h.setPrev2 _).openEmpty .closed
  · exact h.openEmpty .closed

/-- In Decode and Carry mode POS may stand anywhere up to LEN. -/
theorem seek (h : s.Sound) (hm : s.cmode.readable = true) {p : Nat} (hp : p ≤ s.stream.length) : (s.seek p).Sound :=
  { h with
    pos_le := hp
    closed := fun hc => absurd hc (readable_ne hm).1
    encode_end := fun he => absurd he (readable_ne hm).2 }

/-- Appending in Carry mode leaves POS where it was (R131). -/
theorem appendBits (h : s.Sound) (hm : s.cmode.carried = true) {bits : List Bool} (hfit : s.fits bits.length = true) :
    (s.appendBits bits).Sound :=
  have hmode := readable_ne (readable_of_carried hm)
  { h with
    pos_le := by simpa using Nat.le_add_right_of_le h.pos_le
    len_le := by simpa using (fits_iff s _).mp hfit
    closed := fun hc => absurd hc hmode.1
    encode_end := fun he => absurd he hmode.2 }

/-- Any stream within the capacity, with POS at its end, is sound in Encode mode (R130, R215). -/
theorem replaceStream_seekEnd (h : s.Sound) (hm : s.cmode.writable = true) {bits : List Bool}
    (hlen : bits.length ≤ capBits) : ({ s with stream := bits } : State).seekEnd.Sound :=
  { h with
    pos_le := Nat.le_refl _
    len_le := hlen
    closed := fun hc => by simp [(writable_iff _).mp hm] at hc
    encode_end := fun _ => rfl }

theorem dropConsumed (h : s.Sound) (hm : s.cmode.carried = true) : s.dropConsumed.Sound :=
  have hmode := readable_ne (readable_of_carried hm)
  { h with
    pos_le := Nat.zero_le _
    len_le := by simpa using Nat.le_add_right_of_le h.len_le
    closed := fun hc => absurd hc hmode.1
    encode_end := fun he => absurd he hmode.2 }

/-- Storing a decode of a supported identifier, under the state's own parity setting, keeps R39 items 6 to 8. -/
theorem storeFrame (h : s.Sound) {v : View} {p : Nat} (hparity : v.parityEn = s.parityEn)
    (hsup : supported (decodeSubframe v p).sfid = true) : (s.storeFrame (decodeSubframe v p)).Sound :=
  { h with
    flags_legal := decodeSubframe_flagOf_ne_three v p
    unchecked := fun hoff => decodeSubframe_vflags_of_parity_off v p (hparity.trans hoff)
    frame_supported := fun _ => by
      rw [← supported_iff]
      exact (congrArg supported (sfidOfHow_howOf _)).trans hsup }

/-- A scan that found no frame clears FRAME_VALID and keeps the frame registers (R181, R184). -/
theorem finishScan_none (h : s.Sound) (hm : s.cmode.readable = true) {e : ScanEnd} (hp : e.pos ≤ s.stream.length)
    (hnone : e.frame = none) : (s.finishScan e).Sound := by
  unfold State.finishScan
  rw [hnone]
  exact { h.seek hm hp with
    frame_supported := nofun
    consumed_le := hp.trans h.len_le }

/-- A scan stops within the stream, and what it stores was decoded there and is supported (R181, R182). -/
theorem scan (h : s.Sound) (hm : s.cmode.readable = true) : s.scan.Sound := by
  have hpos : (scanFrom s.view s.pos).pos ≤ s.stream.length := (scanLoop_bounds s.view _ s.pos false false h.pos_le).2
  obtain ⟨q, -, hacc, -, -, hframe, -⟩ | ⟨hnone, -⟩ :=
    scanLoop_frame s.view (s.view.stream.length - s.pos + 1) s.pos false false
  · obtain ⟨-, -, hunsup, -⟩ := hacc
    have hsup : supported (decodeSubframe s.view q).sfid = true := by simpa [rejectedUnsup] using hunsup
    rw [State.scan, finishScan_some (e := scanFrom s.view s.pos) s hframe]
    have hcleared := h.finishScan_none (e := { scanFrom s.view s.pos with frame := none }) hm hpos rfl
    exact hcleared.storeFrame (by simp [State.view]) hsup
  · exact h.finishScan_none hm hpos hnone

end State.Sound

/-- Every effect keeps the invariants of R39: one operation's lemma per command. -/
theorem Effect.sound {s u : State} {i : Instr} (heff : Effect s i u) (h : s.Sound) : u.Sound := by
  cases heff with
  | unchanged => exact h
  | wrfrm hb hf => exact h.writeFrameReg _ _
  | sbClr hb hm => exact h.clearStaging
  | sbPush hb hm hroom => exact h.pushStaging _ _ hroom
  | bcOpen hb hm => exact h.openStaged _
  | bcOpenW hb hm => exact h.openEmpty .encode
  | bcOpenC hb hm => exact (h.openEmpty .carry).setPrev2 0
  | bcClose hb => exact h.closeCursor
  | bcAdv hb hm hn => exact h.seek hm hn
  | bcPut hb hm hfit => exact h.replaceStream_seekEnd hm (by simpa [putBits] using (fits_iff s _).mp hfit)
  | bcAppend hb hm hfit => exact h.appendBits hm (by simpa using hfit)
  | bcDrop hb hm => exact h.dropConsumed hm
  | syncScan hb hm => exact h.scan hm
  | sfDec hb hm hbits hsup =>
    refine (h.storeFrame rfl hsup).seek hm ?_
    simp only [State.storeFrame_stream, subframeBits] at hbits ⊢
    omega
  | sfEnc hb hm hfit hmap => exact h.replaceStream_seekEnd hm (by simpa [subframeBits] using (fits_iff s _).mp hfit)
  | decRaw hb hm => exact ((h.openStaged false).scan rfl).closeCursor
  | @decByte byte pad hb hm hfit =>
    have happend : (s.appendByte byte pad).Sound := h.appendBits hm (by simpa using hfit)
    exact (happend.scan (readable_of_carried hm)).dropConsumed (by simpa [State.scan, State.appendByte] using hm)

/-- Every command keeps the invariant: INIT establishes it, and no other command sets BUILT. -/
theorem State.Inv.exec {s t : State} (h : s.Inv) {i : Instr} (hexec : exec i s = .next t) : t.Inv := by
  by_cases hi : ∃ p th, i = .init p th
  · obtain ⟨p, th, rfl⟩ := hi
    obtain ⟨hth, hinit⟩ | ⟨-, hinit⟩ := exec_init_cases p th s <;> cases hexec.symm.trans hinit
    · exact fun _ => (s.build_sound p hth).answer _ _
    · exact fun hb => (h hb).answer _ _
  · obtain ⟨u, st, res, hother, heff⟩ := exec_hasEffect i s fun p th hinit => hi ⟨p, th, hinit⟩
    cases hexec.symm.trans hother
    exact fun hb => (heff.sound (h (heff.config_eq.1.symm.trans hb))).answer _ _

/-- An illegal CMD leaves the port and answers BadCommand; no state is written (R95). -/
theorem step_of_decode_error {s : State} {r : Request} {rest : List Request} {e : DecodeError} (hreq : s.requests = r :: rest)
    (hdec : decode r = .error e) : step s = .next (({ s with requests := rest } : State).answer .badCommand 0) := by
  simp only [step, takeRequest_cons s r rest hreq, hdec, fail_eq]

/-- Settles O13: an idle step changes nothing, an illegal CMD only the command port, and every command keeps the invariant. -/
theorem stepKeepsTheStateSound : Obligations.StepKeepsTheStateSound := by
  intro s t hinv hstep
  cases hreq : s.requests with
  | nil =>
    cases hstep.symm.trans (step_of_no_request hreq)
    exact hinv
  | cons r rest =>
    have htaken : ({ s with requests := rest } : State).Inv := fun hb => (hinv hb).setRequests rest
    cases hdec : decode r with
    | ok i => exact htaken.exec ((step_of_decode_ok hreq hdec).symm.trans hstep)
    | error e =>
      cases hstep.symm.trans (step_of_decode_error hreq hdec)
      exact fun hb => (htaken hb).answer _ _

end Sys2Proof.Machine

/-! ## Proofs for 20_memory: the logical stream of a staging buffer, and the two bits before a position -/

namespace Sys2Proof.Machine

/-! ### The positions of `strip` (R62) -/

/-- How many data bits an entry gives to the logical stream: its pad counts only when `usepad = 1` (R62). -/
def SBEntry.dataLen (usepad : Bool) (e : SBEntry) : Nat := 8 - if usepad then e.pad.toNat else 0

theorem SBEntry.length_dataBits (usepad : Bool) (e : SBEntry) :
    (dataBits e.byte (if usepad then e.pad else 0)).length = e.dataLen usepad := by
  cases usepad <;> simp [SBEntry.dataLen]

theorem SBEntry.dataLen_le (usepad : Bool) (e : SBEntry) : e.dataLen usepad ≤ 8 := Nat.sub_le _ _

theorem length_strip (sb : List SBEntry) (usepad : Bool) :
    (strip sb usepad).length = (sb.map (SBEntry.dataLen usepad)).sum := by
  induction sb with
  | nil => rfl
  | cons e sb ih => rw [strip_cons, List.length_append, ih, SBEntry.length_dataBits, List.map_cons, List.sum_cons]

/-- The logical stream around entry i: the bits of the entries before it, its own data bits, the bits of those after it. -/
theorem strip_split (sb : List SBEntry) (usepad : Bool) (i : Nat) (hi : i < sb.length) :
    strip sb usepad = strip (sb.take i) usepad ++
      (dataBits sb[i].byte (if usepad then sb[i].pad else 0) ++ strip (sb.drop (i + 1)) usepad) := by
  rw [← strip_cons, ← List.drop_eq_getElem_cons hi, ← strip_append, List.take_append_drop]

/-- Data bit o of entry i, counted from bit 7 down, stands o places after the bits of the entries before it (R62). -/
theorem getElem?_strip (sb : List SBEntry) (usepad : Bool) (i : Nat) (hi : i < sb.length) (o : Nat)
    (ho : o < sb[i].dataLen usepad) :
    (strip sb usepad)[((sb.take i).map (SBEntry.dataLen usepad)).sum + o]? = some (sb[i].byte.getLsbD (7 - o)) := by
  have hdata : o < (dataBits sb[i].byte (if usepad then sb[i].pad else 0)).length := by
    rwa [SBEntry.length_dataBits]
  have hbyte : o < 8 := ho.trans_le (SBEntry.dataLen_le usepad sb[i])
  rw [← length_strip, strip_split sb usepad i hi, List.getElem?_append_right (Nat.le_add_right _ _),
    Nat.add_sub_cancel_left, List.getElem?_append_left hdata, List.getElem?_eq_getElem hdata, getElem_dataBits]
  simp [BitVec.getMsbD, hbyte]

/-- Settles O21: the length is the sum of the entries' data bit counts, and every data bit is found in its entry's part of
the stream. -/
theorem stripMapsEveryDataBit : Obligations.StripMapsEveryDataBit := by
  intro sb usepad padOf
  refine ⟨length_strip sb usepad, ?_, getElem?_strip sb usepad⟩
  rintro rfl
  exact length_strip_raw sb

/-! ### The two bits before a position (R66) -/

/-- Of two bits put together the left one is the most significant. -/
theorem getMsbD_ofBool_append : ∀ a b : Bool,
    (BitVec.ofBool a ++ BitVec.ofBool b).getMsbD 0 = a ∧ (BitVec.ofBool a ++ BitVec.ofBool b).getMsbD 1 = b := by
  decide

/-- A `take` of two bits is the bit at the position and the bit after it, in stream order (R15). -/
theorem takeBits_two (bs : List Bool) (p : Nat) (h : p + 1 < bs.length) :
    takeBits bs p 2 = BitVec.ofBool bs[p] ++ BitVec.ofBool bs[p + 1] := by
  apply BitVec.eq_of_getMsbD_eq
  intro j hj
  rw [getMsbD_takeBits bs p 2 j (by omega) hj]
  obtain rfl | rfl : j = 0 ∨ j = 1 := by omega
  · exact (getMsbD_ofBool_append bs[p] bs[p + 1]).1.symm
  · exact (getMsbD_ofBool_append bs[p] bs[p + 1]).2.symm

/-- At position 1 the first of the two bits is the carry's low bit and the second is the first stream bit (R66). -/
theorem prev2At_one (carry : BitVec 2) (bs : List Bool) (h : 0 < bs.length) :
    prev2At carry bs 1 = BitVec.ofBool (carry.getLsbD 0) ++ BitVec.ofBool bs[0] := by
  have hlow : (extStream carry bs)[1]'(by simp) = carry.getLsbD 0 := by simp [extStream, BitVec.getMsbD]
  have hfirst : (extStream carry bs)[2]'(by simpa using h) = bs[0] := by simp [extStream]
  rw [prev2At, takeBits_two _ 1 (by simpa using h), hlow, hfirst]

theorem State.carryBits_of_readable {s : State} (h : s.cmode = .decode ∨ s.cmode = .carry) : s.carryBits = s.prev2 := by
  obtain hm | hm := h
  · simp [State.carryBits, hm]
  · simp [State.carryBits, hm]

theorem State.carryBits_of_encode {s : State} (h : s.cmode = .encode) : s.carryBits = 0 := by
  simp [State.carryBits, h]

/-- Settles O35: the carry by mode, then one law of `prev2At` for each of the positions 0, 1 and from 2 on. -/
theorem prevTwoBitsComeFromTheStreamOrTheCarry : Obligations.PrevTwoBitsComeFromTheStreamOrTheCarry := fun s =>
  ⟨State.carryBits_of_readable, State.carryBits_of_encode, prev2At_zero s.carryBits s.stream,
    prev2At_one s.carryBits s.stream,
    fun q h => (prev2At_add_two s.carryBits s.stream q).trans (takeBits_two s.stream q h)⟩

end Sys2Proof.Machine

/-! ## Proofs for 30_encoding: the rows of R92, decode against encode, and the illegal encodings of R95

Everything goes through two facts: a row of R92 selects exactly the CMDs with its opcode and its zero field clear
(`selects_iff_zeroField`), and `decode` answers a command exactly when a row selects the CMD and builds it
(`decode_eq_ok_iff`). -/

namespace Sys2Proof.Machine

/-! ### The zero field (R91) -/

/-- The field "zero" of a CMD whose operands take the low k bits: CMD[23:k] (R91). -/
def zeroField (k : Nat) (cmd : Word) : BitVec (24 - k) := cmd.extractLsb' k (24 - k)

/-- The mask of a row whose operands take the low k bits of the CMD: the opcode and the zero field (R92). -/
def rowMask (k : Nat) : Word := 0xFF#8 ++ (BitVec.allOnes 24 <<< k)

theorem zeroField_eq_zero_iff (k : Nat) (cmd : Word) :
    zeroField k cmd = 0 ↔ ∀ i, k ≤ i → i < 24 → cmd.getLsbD i = false := by
  constructor
  · intro h i hk hi
    have hbit := congrArg (BitVec.getLsbD · (i - k)) h
    have hlt : i - k < 24 - k := by omega
    simpa [zeroField, hlt, Nat.add_sub_cancel' hk] using hbit
  · intro h
    apply BitVec.eq_of_getLsbD_eq
    intro i hi
    simp [zeroField, hi, h (k + i) (by omega) (by omega)]

theorem fieldN_and_ones_eq_zero_iff (k : Nat) (cmd : Word) :
    fieldN cmd &&& (BitVec.allOnes 24 <<< k) = 0 ↔ zeroField k cmd = 0 := by
  rw [zeroField_eq_zero_iff]
  constructor
  · intro h i hk hi
    have hbit := congrArg (BitVec.getLsbD · i) h
    have hlt : i - k < 24 := by omega
    have hge : ¬ i < k := Nat.not_lt.mpr hk
    simpa [fieldN, hi, hge, hlt, -BitVec.reduceAllOnes] using hbit
  · intro h
    apply BitVec.eq_of_getLsbD_eq
    intro i hi
    by_cases hk : k ≤ i
    · simp [fieldN, hi, h i hk hi]
    · simp [Nat.lt_of_not_le hk]

/-- Operands that take all 24 low bits leave no zero field (format N). -/
theorem zeroField_full (cmd : Word) : zeroField 24 cmd = 0 :=
  (zeroField_eq_zero_iff 24 cmd).mpr fun _ hk hi => absurd hi (Nat.not_lt.mpr hk)

/-! ### The rows of R92 -/

/-- Row n of R92, counted from 0. -/
def rowAt (n : Fin 23) : Row := opcodeRows.get n

theorem rowAt_mem (n : Fin 23) : rowAt n ∈ opcodeRows := List.get_mem opcodeRows n

/-- Every row matches its opcode over 24 zeros, and masks the opcode with the zero field of one of the five operand widths. -/
theorem opcodeRows_shape : ∀ row ∈ opcodeRows,
    row.matchBits = formatZ (opcodeOf row.matchBits) ∧ ∃ k ∈ [24, 11, 5, 1, 0], row.mask = rowMask k := by
  decide

/-- No two rows have the same opcode. -/
theorem opcodeRows_opcodes_nodup : (opcodeRows.map fun row => opcodeOf row.matchBits).Nodup := by
  decide

/-- A row selects exactly the CMDs with its opcode and a clear zero field (R92). -/
theorem selects_iff_zeroField {row : Row} (hrow : row ∈ opcodeRows) {k : Nat} (hmask : row.mask = rowMask k) (cmd : Word) :
    row.selects cmd = true ↔ opcodeOf cmd = opcodeOf row.matchBits ∧ zeroField k cmd = 0 := by
  obtain ⟨hmatch, -⟩ := opcodeRows_shape row hrow
  rw [← fieldN_and_ones_eq_zero_iff]
  have hsel := selects_iff row _ (opcodeOf cmd) _ (fieldN cmd) hmask hmatch
  rw [← cmd_split] at hsel
  simp [hsel]

theorem opcodeOf_of_selects {row : Row} (hrow : row ∈ opcodeRows) {cmd : Word} (hsel : row.selects cmd = true) :
    opcodeOf cmd = opcodeOf row.matchBits := by
  obtain ⟨-, k, -, hmask⟩ := opcodeRows_shape row hrow
  exact ((selects_iff_zeroField hrow hmask cmd).mp hsel).1

/-- Rows with the same opcode are the same row: the 23 rows are disjoint (R99). -/
theorem row_eq_of_opcode_eq {a b : Row} (ha : a ∈ opcodeRows) (hb : b ∈ opcodeRows)
    (h : opcodeOf a.matchBits = opcodeOf b.matchBits) : a = b :=
  List.inj_on_of_nodup_map opcodeRows_opcodes_nodup ha hb h

/-! ### What `decode` answers (R99) -/

/-- The selecting row is the one the loop finds, whatever the order (R99). -/
theorem find_row_of_selects {row : Row} (hrow : row ∈ opcodeRows) {cmd : Word} (hsel : row.selects cmd = true) :
    opcodeRows.find? (fun row => row.selects cmd) = some row := by
  cases hfind : opcodeRows.find? (fun row => row.selects cmd) with
  | none => exact absurd hsel (List.find?_eq_none.mp hfind row hrow)
  | some found =>
    have hmem := List.mem_of_find?_eq_some hfind
    have hfound := List.find?_some hfind
    rw [row_eq_of_opcode_eq hmem hrow ((opcodeOf_of_selects hmem hfound).symm.trans (opcodeOf_of_selects hrow hsel))]

theorem decode_of_selects {row : Row} (hrow : row ∈ opcodeRows) {r : Request} (hsel : row.selects r.cmd = true) :
    decode r = .ok (row.build r) := by
  rw [decode, find_row_of_selects hrow hsel]

theorem decode_of_no_row {r : Request} (h : ∀ row ∈ opcodeRows, ¬ row.selects r.cmd = true) : ∃ e, decode r = .error e := by
  rw [decode, List.find?_eq_none.mpr h]
  exact ⟨_, (apply_ite Except.error _ _ _).symm⟩

/-- The inversion lemma of `decode`: it answers the command that the row selecting the CMD builds. -/
theorem decode_eq_ok_iff {r : Request} {i : Instr} :
    decode r = .ok i ↔ ∃ row ∈ opcodeRows, row.selects r.cmd = true ∧ row.build r = i := by
  constructor
  · intro h
    by_cases hany : ∃ row ∈ opcodeRows, row.selects r.cmd = true
    · obtain ⟨row, hrow, hsel⟩ := hany
      exact ⟨row, hrow, hsel, Except.ok.inj ((decode_of_selects hrow hsel).symm.trans h)⟩
    · obtain ⟨e, he⟩ := decode_of_no_row fun row hrow hsel => hany ⟨row, hrow, hsel⟩
      cases he.symm.trans h
  · rintro ⟨row, hrow, hsel, rfl⟩
    exact decode_of_selects hrow hsel

/-- A request that is no command is an error of the decoder. -/
theorem decode_error_of_not_ok {r : Request} (h : ¬ ∃ i, decode r = .ok i) : ∃ e, decode r = .error e := by
  cases hdec : decode r with
  | ok i => exact absurd ⟨i, hdec⟩ h
  | error e => exact ⟨e, rfl⟩

theorem selects_iff_and_eq (row : Row) (cmd : Word) : row.selects cmd = true ↔ cmd &&& row.mask = row.matchBits :=
  beq_iff_eq

/-- Settles O3: two rows that select one CMD have one opcode, so they are one row, and it is the one the loop finds. -/
theorem decodePicksTheOnlyMatchingRow : Obligations.DecodePicksTheOnlyMatchingRow := by
  refine ⟨rfl, ?_, ?_, ?_⟩
  · refine (List.pairwise_map.mp opcodeRows_opcodes_nodup).imp_of_mem fun {a b} ha hb hne cmd ⟨hcmda, hcmdb⟩ => hne ?_
    have hopca := opcodeOf_of_selects ha ((selects_iff_and_eq a cmd).mpr hcmda)
    have hopcb := opcodeOf_of_selects hb ((selects_iff_and_eq b cmd).mpr hcmdb)
    exact hopca.symm.trans hopcb
  · intro r row hrow hcmd
    exact decode_of_selects hrow ((selects_iff_and_eq row r.cmd).mpr hcmd)
  · intro r hnone
    exact decode_of_no_row fun row hrow hsel => hnone row hrow ((selects_iff_and_eq row r.cmd).mp hsel)

/-! ### Decoding an encoded command

For each format: its zero field is clear, so the row with its opcode and mask decodes it. -/

@[simp] theorem zeroField_formatZ (opc : BitVec 8) : zeroField 0 (formatZ opc) = 0 :=
  fieldN_append opc 0#24

@[simp] theorem zeroField_formatB (opc : BitVec 8) (b : Byte) (p : BitVec 3) : zeroField 11 (formatB opc b p) = 0 := by
  rw [zeroField_eq_zero_iff]
  intro i hk hi
  rw [formatB, getLsbD_cmd, if_pos hi, getLsbD_lowB, if_neg (by omega), BitVec.getLsbD_of_ge p (i - 8) (by omega)]

@[simp] theorem zeroField_formatR (opc : BitVec 8) (reg : BitVec 5) : zeroField 5 (formatR opc reg) = 0 := by
  rw [zeroField_eq_zero_iff]
  intro i hk hi
  rw [formatR, getLsbD_cmd, if_pos hi, getLsbD_lowR, BitVec.getLsbD_of_ge reg i hk]

@[simp] theorem zeroField_formatC (opc : BitVec 8) (t : BitVec 4) (p : Bool) : zeroField 5 (formatC opc t p) = 0 := by
  rw [zeroField_eq_zero_iff]
  intro i hk hi
  rw [formatC, getLsbD_cmd, if_pos hi, getLsbD_lowC, if_neg (by omega), BitVec.getLsbD_of_ge t (i - 1) (by omega)]

@[simp] theorem zeroField_formatO (opc : BitVec 8) (u : Bool) : zeroField 1 (formatO opc u) = 0 := by
  rw [zeroField_eq_zero_iff]
  intro i hk hi
  rw [formatO, getLsbD_cmd, if_pos hi, getLsbD_lowO, decide_eq_false (by omega), Bool.false_and]

/-- Row n of R92 decodes every request with its opcode and a clear zero field. -/
theorem decode_of_row {r : Request} {i : Instr} (n : Fin 23) {k : Nat}
    (hmask : (rowAt n).mask = rowMask k) (hopc : opcodeOf r.cmd = opcodeOf (rowAt n).matchBits)
    (hzero : zeroField k r.cmd = 0) (hbuild : (rowAt n).build r = i) : decode r = .ok i :=
  decode_eq_ok_iff.mpr ⟨_, rowAt_mem n, (selects_iff_zeroField (rowAt_mem n) hmask r.cmd).mpr ⟨hopc, hzero⟩, hbuild⟩

/-- A format Z command: its row needs no field of the CMD. -/
theorem decode_formatZ {opc : BitVec 8} {arg : Word} {i : Instr} (n : Fin 23)
    (hmask : (rowAt n).mask = rowMask 0) (hmatch : (rowAt n).matchBits = formatZ opc)
    (hbuild : (rowAt n).build ⟨formatZ opc, arg⟩ = i) : decode ⟨formatZ opc, arg⟩ = .ok i :=
  decode_of_row n hmask (congrArg opcodeOf hmatch).symm (zeroField_formatZ opc) hbuild

theorem decode_formatN {opc : BitVec 8} {x : BitVec 24} {arg : Word} {mk : BitVec 24 → Instr} (n : Fin 23)
    (hmask : (rowAt n).mask = rowMask 24) (hmatch : (rowAt n).matchBits = formatZ opc)
    (hbuild : ∀ cmd, (rowAt n).build ⟨cmd, arg⟩ = mk (fieldN cmd)) :
    decode ⟨formatN opc x, arg⟩ = .ok (mk x) :=
  decode_of_row n hmask (by simp [hmatch]) (zeroField_full _) (by rw [hbuild, fieldN_formatN])

theorem decode_formatB {opc : BitVec 8} {b : Byte} {p : BitVec 3} {mk : Byte → BitVec 3 → Instr}
    (n : Fin 23) (hmask : (rowAt n).mask = rowMask 11)
    (hmatch : (rowAt n).matchBits = formatZ opc)
    (hbuild : ∀ r, (rowAt n).build r = mk (fieldByte r.cmd) (fieldPad r.cmd)) :
    decode ⟨formatB opc b p, 0⟩ = .ok (mk b p) :=
  decode_of_row n hmask (by simp [hmatch]) (zeroField_formatB opc b p)
    (by rw [hbuild, fieldByte_formatB, fieldPad_formatB])

theorem decode_formatR {opc : BitVec 8} {reg : BitVec 5} {arg : Word} {mk : BitVec 5 → Instr} (n : Fin 23)
    (hmask : (rowAt n).mask = rowMask 5) (hmatch : (rowAt n).matchBits = formatZ opc)
    (hbuild : ∀ cmd, (rowAt n).build ⟨cmd, arg⟩ = mk (fieldReg cmd)) :
    decode ⟨formatR opc reg, arg⟩ = .ok (mk reg) :=
  decode_of_row n hmask (by simp [hmatch]) (zeroField_formatR opc reg) (by rw [hbuild, fieldReg_formatR])

/-- Settles O1: every command names its row, whose fields read back the operands of the command's format. -/
theorem decodeOfEncodeIsTheCommand : Obligations.DecodeOfEncodeIsTheCommand := by
  intro i
  cases i with
  | init p t =>
    exact decode_of_row 0 rfl (opcodeOf_formatC _ t p) (zeroField_formatC _ t p)
      (congrArg₂ Instr.init (fieldBit0_formatC _ t p) (fieldThresh_formatC _ t p))
  | rdreg reg => exact decode_formatR 1 rfl rfl fun _ => rfl
  | wrfrm reg value => exact decode_formatR (mk := (Instr.wrfrm · value)) 2 rfl rfl fun _ => rfl
  | sbClr => exact decode_formatZ 3 rfl rfl rfl
  | sbPush byte pad => exact decode_formatB 4 rfl rfl fun _ => rfl
  | bcOpen usepad =>
    exact decode_of_row 5 rfl (opcodeOf_formatO _ usepad) (zeroField_formatO _ usepad)
      (congrArg Instr.bcOpen (fieldBit0_formatO _ usepad))
  | bcOpenW => exact decode_formatZ 6 rfl rfl rfl
  | bcOpenC => exact decode_formatZ 7 rfl rfl rfl
  | bcClose => exact decode_formatZ 8 rfl rfl rfl
  | bcPeek n => exact decode_formatN 9 rfl rfl fun _ => rfl
  | bcAdv n => exact decode_formatN 10 rfl rfl fun _ => rfl
  | bcPos => exact decode_formatZ 11 rfl rfl rfl
  | bcPut n value => exact decode_formatN (mk := (Instr.bcPut · value)) 12 rfl rfl fun _ => rfl
  | bcAppend byte pad => exact decode_formatB 13 rfl rfl fun _ => rfl
  | bcDrop => exact decode_formatZ 14 rfl rfl rfl
  | bcRdb idx => exact decode_formatN 15 rfl rfl fun _ => rfl
  | parComp operand => exact decode_formatZ 16 rfl rfl rfl
  | parVrfy operand => exact decode_formatZ 17 rfl rfl rfl
  | syncScan => exact decode_formatZ 18 rfl rfl rfl
  | sfDec => exact decode_formatZ 19 rfl rfl rfl
  | sfEnc => exact decode_formatZ 20 rfl rfl rfl
  | decRaw => exact decode_formatZ 21 rfl rfl rfl
  | decByte byte pad => exact decode_formatB 22 rfl rfl fun _ => rfl

/-! ### Encoding a decoded request

For each format: a CMD with a clear zero field is put together again from its opcode and its fields. -/

/-- A CMD is its opcode over any 24 bits that agree with its low bits. -/
theorem cmd_eq_append {cmd : Word} {opc : BitVec 8} {low : BitVec 24} (hopc : opcodeOf cmd = opc)
    (hlow : ∀ i < 24, low.getLsbD i = cmd.getLsbD i) : (opc ++ low : Word) = cmd := by
  have hfield : low = fieldN cmd := BitVec.eq_of_getLsbD_eq fun i hi => by
    rw [hlow i hi, fieldN, BitVec.getLsbD_extractLsb', Nat.zero_add, decide_eq_true hi, Bool.true_and]
  rw [hfield, ← hopc, ← cmd_split]

section Reassembly

variable {cmd : Word} {opc : BitVec 8} (hopc : opcodeOf cmd = opc)
include hopc

theorem formatN_fields : formatN opc (fieldN cmd) = cmd := by rw [formatN, ← hopc, ← cmd_split]

theorem formatZ_fields (hzero : zeroField 0 cmd = 0) : formatZ opc = cmd := by
  have hlow : fieldN cmd = 0#24 := hzero
  rw [formatZ, ← hlow]
  exact formatN_fields hopc

theorem formatB_fields (hzero : zeroField 11 cmd = 0) : formatB opc (fieldByte cmd) (fieldPad cmd) = cmd := by
  rw [zeroField_eq_zero_iff] at hzero
  refine cmd_eq_append hopc fun i hi => ?_
  rw [getLsbD_lowB]
  split
  next hbyte => simp [fieldByte, hbyte]
  next hbyte =>
    by_cases hpad : i < 11
    · have hback : 8 + (i - 8) = i := by omega
      have hlt : i - 8 < 3 := by omega
      simp [fieldPad, hback, hlt]
    · rw [hzero i (by omega) hi, BitVec.getLsbD_of_ge _ _ (by omega)]

theorem formatR_fields (hzero : zeroField 5 cmd = 0) : formatR opc (fieldReg cmd) = cmd := by
  rw [zeroField_eq_zero_iff] at hzero
  refine cmd_eq_append hopc fun i hi => ?_
  rw [getLsbD_lowR]
  by_cases hreg : i < 5
  · simp [fieldReg, hreg]
  · rw [hzero i (by omega) hi, BitVec.getLsbD_of_ge _ _ (by omega)]

theorem formatC_fields (hzero : zeroField 5 cmd = 0) : formatC opc (fieldThresh cmd) (fieldBit0 cmd) = cmd := by
  rw [zeroField_eq_zero_iff] at hzero
  refine cmd_eq_append hopc fun i hi => ?_
  rw [getLsbD_lowC]
  split
  next hbit0 => rw [Nat.lt_one_iff.mp hbit0, fieldBit0]
  next hbit0 =>
    by_cases hthresh : i < 5
    · have hback : 1 + (i - 1) = i := by omega
      have hlt : i - 1 < 4 := by omega
      simp [fieldThresh, hback, hlt]
    · rw [hzero i (by omega) hi, BitVec.getLsbD_of_ge _ _ (by omega)]

theorem formatO_fields (hzero : zeroField 1 cmd = 0) : formatO opc (fieldBit0 cmd) = cmd := by
  rw [zeroField_eq_zero_iff] at hzero
  refine cmd_eq_append hopc fun i hi => ?_
  rw [getLsbD_lowO]
  by_cases hbit0 : i = 0
  · simp [hbit0, fieldBit0]
  · rw [hzero i (by omega) hi, decide_eq_false hbit0, Bool.false_and]

end Reassembly

/-- Encoding the command built from a request gives the request back, up to an ARG that the command ignores (R90). -/
def Restores (build : Request → Instr) (r : Request) : Prop :=
  (encode (build r)).cmd = r.cmd ∧ ((build r).usesArg = true → (encode (build r)).arg = r.arg)

/-- To restore the requests that row n selects, its format has to restore those with its opcode and a clear zero field. -/
theorem rowAt_restores_of {n : Fin 23} {r : Request} (hsel : (rowAt n).selects r.cmd = true) (k : Nat)
    (hmask : (rowAt n).mask = rowMask k)
    (h : opcodeOf r.cmd = opcodeOf (rowAt n).matchBits → zeroField k r.cmd = 0 → Restores (rowAt n).build r) :
    Restores (rowAt n).build r :=
  have ⟨hopc, hzero⟩ := (selects_iff_zeroField (rowAt_mem n) hmask r.cmd).mp hsel
  h hopc hzero

/-- Every row restores the requests it selects: its command puts the fields back in the row's format. -/
theorem rowAt_restores (r : Request) : ∀ n : Fin 23, (rowAt n).selects r.cmd = true → Restores (rowAt n).build r
  | 0, hsel => rowAt_restores_of hsel 5 rfl fun hopc hzero => ⟨formatC_fields hopc hzero, nofun⟩
  | 1, hsel => rowAt_restores_of hsel 5 rfl fun hopc hzero => ⟨formatR_fields hopc hzero, nofun⟩
  | 2, hsel => rowAt_restores_of hsel 5 rfl fun hopc hzero => ⟨formatR_fields hopc hzero, fun _ => rfl⟩
  | 4, hsel | 13, hsel | 22, hsel =>
    rowAt_restores_of hsel 11 rfl fun hopc hzero => ⟨formatB_fields hopc hzero, nofun⟩
  | 5, hsel => rowAt_restores_of hsel 1 rfl fun hopc hzero => ⟨formatO_fields hopc hzero, nofun⟩
  | 9, hsel | 10, hsel | 15, hsel => rowAt_restores_of hsel 24 rfl fun hopc _ => ⟨formatN_fields hopc, nofun⟩
  | 12, hsel => rowAt_restores_of hsel 24 rfl fun hopc _ => ⟨formatN_fields hopc, fun _ => rfl⟩
  | 3, hsel | 6, hsel | 7, hsel | 8, hsel | 11, hsel | 14, hsel | 18, hsel | 19, hsel | 20, hsel | 21, hsel =>
    rowAt_restores_of hsel 0 rfl fun hopc hzero => ⟨formatZ_fields hopc hzero, nofun⟩
  | 16, hsel | 17, hsel => rowAt_restores_of hsel 0 rfl fun hopc hzero => ⟨formatZ_fields hopc hzero, fun _ => rfl⟩
  | ⟨n + 23, hn⟩, _ => absurd hn (Nat.not_lt.mpr (Nat.le_add_left 23 n))

/-- Settles O2: a request that decodes was selected by a row, and every row restores the requests it selects. -/
theorem encodeOfDecodeIsTheRequest : Obligations.EncodeOfDecodeIsTheRequest := by
  intro r i hdec
  obtain ⟨row, hrow, hsel, rfl⟩ := decode_eq_ok_iff.mp hdec
  obtain ⟨n, rfl⟩ := List.mem_iff_get.mp hrow
  exact rowAt_restores r n hsel

/-! ### The CMDs that decode, and the illegal encodings (R95) -/

/-- The opcodes of the rows whose operands take the low k bits of the CMD. -/
def opcodesOfWidth (k : Nat) : List (BitVec 8) :=
  (opcodeRows.filter fun row => row.mask == rowMask k).map fun row => opcodeOf row.matchBits

theorem mem_opcodesOfWidth {k : Nat} {opc : BitVec 8} :
    opc ∈ opcodesOfWidth k ↔ ∃ row ∈ opcodeRows, row.mask = rowMask k ∧ opcodeOf row.matchBits = opc := by
  simp [opcodesOfWidth, and_assoc]

/-- The table of R92 by format: N, B, R and C, O, Z. -/
theorem opcodesOfWidth_eq :
    opcodesOfWidth 24 = [0x24, 0x25, 0x27, 0x2A] ∧ opcodesOfWidth 11 = [0x11, 0x28, 0x49] ∧
    opcodesOfWidth 5 = [0x01, 0x02, 0x03] ∧ opcodesOfWidth 1 = [0x20] ∧
    opcodesOfWidth 0 = [0x10, 0x21, 0x22, 0x23, 0x26, 0x29, 0x30, 0x31, 0x40, 0x41, 0x42, 0x48] := by
  decide

/-- A CMD decodes exactly when its opcode is in the table and the zero field of its row is clear (R95). -/
theorem decodes_iff (r : Request) : (∃ i, decode r = .ok i) ↔
    ∃ k ∈ [24, 11, 5, 1, 0], opcodeOf r.cmd ∈ opcodesOfWidth k ∧ zeroField k r.cmd = 0 := by
  constructor
  · rintro ⟨i, hdec⟩
    obtain ⟨row, hrow, hsel, -⟩ := decode_eq_ok_iff.mp hdec
    obtain ⟨-, k, hk, hmask⟩ := opcodeRows_shape row hrow
    obtain ⟨hopc, hzero⟩ := (selects_iff_zeroField hrow hmask r.cmd).mp hsel
    exact ⟨k, hk, mem_opcodesOfWidth.mpr ⟨row, hrow, hmask, hopc.symm⟩, hzero⟩
  · rintro ⟨k, -, hopc, hzero⟩
    obtain ⟨row, hrow, hmask, hrowopc⟩ := mem_opcodesOfWidth.mp hopc
    exact ⟨_, decode_of_selects hrow ((selects_iff_zeroField hrow hmask r.cmd).mpr ⟨hrowopc.symm, hzero⟩)⟩

theorem init_failsWith_badCommand (s : State) (p : Bool) {t : BitVec 4} (ht : threshLegal t = false) :
    FailsWith (.init p t) s .badCommand := by
  obtain ⟨hlegal, -⟩ | ⟨-, hexec⟩ := exec_init_cases p t s
  · exact absurd hlegal (by simp [ht])
  · exact hexec

theorem rdreg_failsWith_badCommand (s : State) {reg : BitVec 5} (hreg : 20 ≤ reg.toNat) :
    FailsWith (.rdreg reg) s .badCommand := by
  have hnone : Reg.ofNumber reg = none := by
    rw [← Option.not_isSome_iff_eq_none, ofNumber_isSome, decide_eq_true_iff]
    omega
  simp only [FailsWith, exec, execRdreg, hnone, fail_eq]

theorem wrfrm_failsWith_badCommand (s : State) {reg : BitVec 5} (v : Word) (hreg : reg.toNat ≤ 6 ∨ 20 ≤ reg.toNat) :
    FailsWith (.wrfrm reg v) s .badCommand := by
  have hnone : FrameReg.ofNumber reg = none := by
    rw [← Option.not_isSome_iff_eq_none, frameReg_ofNumber_isSome, ← Bool.decide_and, decide_eq_true_iff]
    omega
  simp only [FailsWith, exec, execWrfrm, hnone, fail_eq]

theorem bcPeek_failsWith_badCommand (s : State) {n : BitVec 24} (hn : 33 ≤ n.toNat) :
    FailsWith (.bcPeek n) s .badCommand := by
  have hlimit : ¬ n.toNat ≤ peekMax := Nat.not_le.mpr hn
  simp only [FailsWith, exec, execBcPeek, if_neg hlimit, fail_eq]

theorem bcPut_failsWith_badCommand (s : State) {n : BitVec 24} (v : Word) (hn : 33 ≤ n.toNat) :
    FailsWith (.bcPut n v) s .badCommand := by
  have hlimit : ¬ n.toNat ≤ peekMax := Nat.not_le.mpr hn
  simp only [FailsWith, exec, execBcPut, if_neg hlimit, fail_eq]

/-- Settles O4: `decodes_iff` with the opcodes of each format written out, and one failure lemma per checked operand. -/
theorem illegalEncodingsAnswerBadCommand : Obligations.IllegalEncodingsAnswerBadCommand := by
  refine ⟨fun r => ?_, fun s r rest hreq hillegal => ?_, fun s p t ht => ?_, fun s reg => rdreg_failsWith_badCommand s,
    fun s reg v => wrfrm_failsWith_badCommand s v, fun s n => bcPeek_failsWith_badCommand s,
    fun s n v => bcPut_failsWith_badCommand s v⟩
  · obtain ⟨h24, h11, h5, h1, h0⟩ := opcodesOfWidth_eq
    rw [decodes_iff]
    simp only [List.exists_mem_cons_iff, List.mem_singleton, exists_eq_left, h24, h11, h5, h1, h0, zeroField_full, and_true]
    rfl
  · obtain ⟨e, hdec⟩ := decode_error_of_not_ok hillegal
    exact step_of_decode_error hreq hdec
  · refine init_failsWith_badCommand s p ?_
    rw [threshLegal, ← Bool.decide_and, decide_eq_false (by omega)]

/-! ### The worked encodings of section 6 -/

/-- Settles O5: each legal row is the encoding of its command, so O1 decodes it; each illegal one is an error, which the step
answers with BadCommand. -/
theorem workedEncodingsDecode : Obligations.WorkedEncodingsDecode := by
  have hopcode : decode ⟨0x00000000, 0⟩ = .error .unknownOpcode := by decide
  have hpos : decode ⟨0x26000001, 0⟩ = .error .nonzeroZeroField := by decide
  have hpush : decode ⟨0x11000800, 0⟩ = .error .nonzeroZeroField := by decide
  have hdec := decodeOfEncodeIsTheCommand
  exact ⟨hdec (.init true 2), hdec (.init false 1), hdec (.rdreg 1), hdec (.wrfrm 7 0x1234), hdec (.sbPush 0xA5 0),
    hdec (.sbPush 0xA5 1), hdec (.bcOpen false), hdec (.bcOpen true), hdec (.bcPeek 8),
    ⟨hdec (.bcPeek 33), fun s => bcPeek_failsWith_badCommand s (by decide)⟩, hdec (.bcAdv 300),
    hdec (.bcPut 30 0x22D23434), hdec (.bcRdb 37), hdec (.parComp 0x022D2340), hdec (.decByte 0x8B 1), hopcode, hpos, hpush,
    fun s => ⟨step_of_decode_error (State.offer_requests s _) hopcode, step_of_decode_error (State.offer_requests s _) hpos,
      step_of_decode_error (State.offer_requests s _) hpush⟩⟩

end Sys2Proof.Machine

/-! ## Proofs for 40_bit_cursor: the mode matrix and the commands of the Bit Cursor

After its operand check a command is one mode check around what it does, so two facts carry the exact answers: past the mode
check the command is its body (`exec_of_legal`), and short of it the command fails with WrongMode (`failsWith_wrongMode`). -/

namespace Sys2Proof.Machine

/-! ### Decoding with any ARG (R90) -/

/-- A row that builds a command without ARG builds it from every ARG (R90, I8). -/
theorem build_ignores_arg : ∀ row ∈ opcodeRows, ∀ (cmd a b : Word), (row.build ⟨cmd, a⟩).usesArg = false →
    row.build ⟨cmd, b⟩ = row.build ⟨cmd, a⟩ := by
  simp [opcodeRows, Instr.usesArg]

/-- The CMD of a command that ignores ARG decodes to it whatever ARG is (R90). -/
theorem decode_encode_cmd (i : Instr) (hi : i.usesArg = false) (a : Word) : decode ⟨(encode i).cmd, a⟩ = .ok i := by
  obtain ⟨row, hrow, hsel, hbuild⟩ := decode_eq_ok_iff.mp (decodeOfEncodeIsTheCommand i)
  have hignore := build_ignores_arg row hrow (encode i).cmd (encode i).arg a (by rw [hbuild, hi])
  exact decode_eq_ok_iff.mpr ⟨row, hrow, hsel, hignore.trans hbuild⟩

/-! ### The mode check (R120) -/

section ModeCheck

variable {i : Instr} {s : State} {legal : CMode → Bool} {k : Result} {c : Prop}

/-- In a legal mode of a built core the command is what stands behind its mode check. -/
theorem exec_of_legal (hexec : exec i s = whenLegal s legal k) (hc : legal s.cmode = true ↔ c) (hb : s.built = true)
    (hm : c) : exec i s = k :=
  hexec.trans (whenLegal_legal s legal k hb (hc.mpr hm))

/-- In every other mode, and in every mode of a core that is not built, it fails with WrongMode (R286). -/
theorem failsWith_wrongMode (hexec : exec i s = whenLegal s legal k) (hc : legal s.cmode = true ↔ c)
    (h : ¬ (s.built = true ∧ c)) : FailsWith i s .wrongMode :=
  hexec.trans (whenLegal_illegal s legal k (by rwa [hc]))

/-- A response of another status than WrongMode: what R120 calls passing the mode check. -/
def PassesModeCheck (k : Result) : Prop := ∃ (t : State) (r : Response), k = .next t ∧ t.response = some r ∧ r.st ≠ .wrongMode

theorem PassesModeCheck.of_finish {t : State} {st : Status} {res : Word} (hst : st ≠ .wrongMode) :
    PassesModeCheck (finish t st res) := ⟨_, _, finish_eq t st res, State.answer_response t st res, hst⟩

theorem PassesModeCheck.of_succeed {t : State} {res : Word} : PassesModeCheck (succeed t res) := .of_finish (by decide)

theorem PassesModeCheck.of_scan {t : State} {e : ScanEnd} {res : Word} : PassesModeCheck (finish t (scanStatus e) res) := by
  obtain ⟨hst, -⟩ | ⟨hst, -⟩ := scanStatus_cases e <;> rw [hst] <;> exact .of_finish (by decide)

/-- A bounds check behind the mode check passes it, when its failure has a status of its own. -/
theorem PassesModeCheck.of_bounds {p : Prop} [Decidable p] {t : State} {st : Status} (hk : PassesModeCheck k)
    (hst : st ≠ .wrongMode) : PassesModeCheck (if p then k else fail t st) := by
  split
  · exact hk
  · exact .of_finish hst

/-- One cell of the matrix: a command that is a mode check before something that answers no WrongMode itself. -/
theorem respects_of_guard {passes : Bool} (hexec : exec i s = whenLegal s legal k) (hk : PassesModeCheck k)
    (hpasses : passes = true ↔ s.built = true ∧ legal s.cmode = true) :
    (passes = false → FailsWith i s .wrongMode) ∧ (passes = true → PassesModeCheck (exec i s)) := by
  obtain ⟨hb, hm, hlegal⟩ | ⟨hillegal, hfail⟩ := whenLegal_cases s legal k
  · have hp : passes = true := hpasses.mpr ⟨hb, hm⟩
    exact ⟨fun h => absurd (hp.symm.trans h) (by decide), fun _ => by rwa [hexec, hlegal]⟩
  · exact ⟨fun _ => hexec.trans hfail, fun h => absurd (hpasses.mp h) hillegal⟩

/-- The same with the mode column of R120 written as a proposition. -/
theorem respects_of_mode [Decidable c] (hc : legal s.cmode = true ↔ c) (hexec : exec i s = whenLegal s legal k)
    (hk : PassesModeCheck k) : ((s.built && decide c) = false → FailsWith i s .wrongMode) ∧
      ((s.built && decide c) = true → PassesModeCheck (exec i s)) :=
  respects_of_guard hexec hk (by rw [Bool.and_eq_true, decide_eq_true_iff, hc])

/-- The same for a command that is legal in every mode. -/
theorem respects_of_any (hexec : exec i s = whenLegal s CMode.any k) (hk : PassesModeCheck k) :
    (s.built = false → FailsWith i s .wrongMode) ∧ (s.built = true → PassesModeCheck (exec i s)) :=
  respects_of_guard hexec hk (by rw [any_eq_true, and_iff_left rfl])

end ModeCheck

/-- A well-formed RDREG names a register (R95). -/
theorem exec_rdreg_of_wf {reg : BitVec 5} (h : (Instr.rdreg reg).wf = true) (s : State) :
    ∃ r, exec (.rdreg reg) s = whenLegal s CMode.any (succeed s (s.readReg r)) := by
  obtain ⟨r, hr⟩ := Option.isSome_iff_exists.mp ((ofNumber_isSome reg).trans h)
  exact ⟨r, by simp only [exec, execRdreg, hr]⟩

/-- A well-formed WRFRM names a frame register (R95). -/
theorem exec_wrfrm_of_wf {reg : BitVec 5} {v : Word} (h : (Instr.wrfrm reg v).wf = true) (s : State) :
    ∃ f, exec (.wrfrm reg v) s = whenLegal s CMode.any (succeed (s.writeFrameReg f v) 0) := by
  obtain ⟨f, hf⟩ := Option.isSome_iff_exists.mp ((frameReg_ofNumber_isSome reg).trans h)
  exact ⟨f, by simp only [exec, execWrfrm, hf]⟩

/-- BC.PEEK of at most 32 bits is its mode check around its bounds check (R127). -/
theorem exec_bcPeek {n : BitVec 24} (hn : n.toNat ≤ 32) (s : State) :
    exec (.bcPeek n) s = whenLegal s CMode.readable
      (if n.toNat ≤ s.stream.length - s.pos then succeed s ((takeBits s.stream s.pos n.toNat).setWidth 32)
       else fail s .insufficientData) :=
  if_pos hn

/-- BC.PUT of at most 32 bits is its mode check around its capacity check (R130). -/
theorem exec_bcPut {n : BitVec 24} (hn : n.toNat ≤ 32) (v : Word) (s : State) :
    exec (.bcPut n v) s = whenLegal s CMode.writable
      (if s.fits n.toNat then
        succeed (s.appendBits (putBits n.toNat v)).seekEnd (resNat (s.stream.length + n.toNat))
       else fail s .outOfRange) :=
  if_pos hn

/-- Settles O9: each command is the mode check of its row of R120 before something that never answers WrongMode. -/
theorem modeMatrixIsRespected : Obligations.ModeMatrixIsRespected := by
  intro i s hwf
  cases i with
  | init p th =>
    refine ⟨nofun, fun _ => ?_⟩
    obtain ⟨-, hexec⟩ | ⟨-, hexec⟩ := exec_init_cases p th s
    all_goals exact ⟨_, _, hexec, rfl, by decide⟩
  | rdreg reg =>
    obtain ⟨r, hexec⟩ := exec_rdreg_of_wf hwf s
    exact respects_of_any hexec .of_succeed
  | wrfrm reg v =>
    obtain ⟨f, hexec⟩ := exec_wrfrm_of_wf hwf s
    exact respects_of_any hexec .of_succeed
  | sbClr => exact respects_of_mode (noCursor_iff s.cmode) rfl .of_succeed
  | sbPush byte pad => exact respects_of_mode (noCursor_iff s.cmode) rfl (.of_bounds .of_succeed (by decide))
  | bcOpen usepad => exact respects_of_mode (noCursor_iff s.cmode) rfl .of_succeed
  | bcOpenW => exact respects_of_mode (noCursor_iff s.cmode) rfl .of_succeed
  | bcOpenC => exact respects_of_mode (noCursor_iff s.cmode) rfl .of_succeed
  | bcClose => exact respects_of_any rfl .of_succeed
  | bcPeek n =>
    exact respects_of_mode (readable_iff s.cmode) (exec_bcPeek (of_decide_eq_true hwf) s) (.of_bounds .of_succeed (by decide))
  | bcAdv n => exact respects_of_mode (readable_iff s.cmode) rfl (.of_bounds .of_succeed (by decide))
  | bcPos => exact respects_of_mode (hasCursor_iff s.cmode) rfl .of_succeed
  | bcPut n v =>
    exact respects_of_mode (writable_iff s.cmode) (exec_bcPut (of_decide_eq_true hwf) v s) (.of_bounds .of_succeed (by decide))
  | bcAppend byte pad => exact respects_of_mode (carried_iff s.cmode) rfl (.of_bounds .of_succeed (by decide))
  | bcDrop => exact respects_of_mode (carried_iff s.cmode) rfl .of_succeed
  | bcRdb idx => exact respects_of_mode (hasCursor_iff s.cmode) rfl (.of_bounds .of_succeed (by decide))
  | parComp operand => exact respects_of_any rfl .of_succeed
  | parVrfy operand => exact respects_of_any rfl .of_succeed
  | syncScan => exact respects_of_mode (readable_iff s.cmode) rfl .of_scan
  | sfDec =>
    exact respects_of_mode (readable_iff s.cmode) rfl (.of_bounds (.of_bounds .of_succeed (by decide)) (by decide))
  | sfEnc =>
    refine respects_of_mode (writable_iff s.cmode) rfl (.of_bounds ?_ (by decide))
    split
    · exact .of_succeed
    · exact .of_finish (by decide)
  | decRaw => exact respects_of_mode (noCursor_iff s.cmode) rfl .of_scan
  | decByte byte pad => exact respects_of_mode (carried_iff s.cmode) rfl (.of_bounds .of_scan (by decide))

/-! ## The staging buffer, opening and closing (R121 to R126) -/

/-- Settles O19: SB.CLR is its mode check around an update of the staging buffer. -/
theorem sbClrEmptiesTheStagingBuffer : Obligations.SbClrEmptiesTheStagingBuffer := fun s a =>
  ⟨decode_encode_cmd .sbClr rfl a, exec_of_legal rfl (noCursor_iff s.cmode),
    failsWith_wrongMode rfl (noCursor_iff s.cmode)⟩

/-- Settles O20: behind the mode check, the two sides of the test `SBN < CAP_BYTES`. -/
theorem sbPushAppendsOneEntry : Obligations.SbPushAppendsOneEntry := by
  intro b p s a
  refine ⟨decode_encode_cmd (.sbPush b p) rfl a, fun hb hm hroom => ?_, fun hb hm hfull => ?_,
    failsWith_wrongMode rfl (noCursor_iff s.cmode)⟩
  · exact (exec_of_legal rfl (noCursor_iff s.cmode) hb hm).trans (if_pos hroom)
  · exact (exec_of_legal rfl (noCursor_iff s.cmode) hb hm).trans (if_neg (Nat.not_lt.mpr hfull))

/-- Settles O22: BC.OPEN is its mode check around a new cursor; the lengths are the laws of `strip`. -/
theorem bcOpenMakesADecodeCursor : Obligations.BcOpenMakesADecodeCursor := fun u s a =>
  ⟨decode_encode_cmd (.bcOpen u) rfl a, exec_of_legal rfl (noCursor_iff s.cmode), length_strip_raw s.sb,
    length_strip_padded s.sb, failsWith_wrongMode rfl (noCursor_iff s.cmode)⟩

/-- Settles O23: both commands are the mode check of an empty cursor around the cursor they make. -/
theorem emptyCursorsAreOpened : Obligations.EmptyCursorsAreOpened := fun s a =>
  ⟨decode_encode_cmd .bcOpenW rfl a, decode_encode_cmd .bcOpenC rfl a,
    fun hb hm => ⟨exec_of_legal rfl (noCursor_iff s.cmode) hb hm, exec_of_legal rfl (noCursor_iff s.cmode) hb hm⟩,
    fun h => ⟨failsWith_wrongMode rfl (noCursor_iff s.cmode) h, failsWith_wrongMode rfl (noCursor_iff s.cmode) h⟩⟩

/-! ### The two bits before POS -/

/-- From POS = 2 on the two bits before POS are stream bits (R66). -/
theorem prev2AtPos_of_pos_add_two {s : State} (q : Nat) (h : q + 1 < s.stream.length) (hp : s.pos = q + 2) :
    s.prev2AtPos = BitVec.ofBool s.stream[q] ++ BitVec.ofBool s.stream[q + 1] := by
  rw [State.prev2AtPos, hp, prev2At_add_two, takeBits_two s.stream q h]

section BitsBeforePos

variable {s : State} (hm : s.cmode = .decode ∨ s.cmode = .carry)
include hm

/-- At POS = 0 the two bits before POS are the old PREV2 (R66). -/
theorem prev2AtPos_of_pos_zero (hp : s.pos = 0) : s.prev2AtPos = s.prev2 := by
  rw [State.prev2AtPos, State.carryBits_of_readable hm, hp, prev2At_zero]

/-- At POS = 1 they are `PREV2[0] ++ S[0]` (R66). -/
theorem prev2AtPos_of_pos_one (h : 0 < s.stream.length) (hp : s.pos = 1) :
    s.prev2AtPos = BitVec.ofBool (s.prev2.getLsbD 0) ++ BitVec.ofBool s.stream[0] := by
  rw [State.prev2AtPos, State.carryBits_of_readable hm, hp, prev2At_one s.prev2 s.stream h]

end BitsBeforePos

/-- What the end of a cursor writes (R126). -/
theorem State.closeCursor_eq (s : State) : s.closeCursor =
    { s with prev2 := if s.cmode.readable then s.prev2AtPos else s.prev2, stream := [], pos := 0, cmode := .closed } := by
  unfold State.closeCursor
  split <;> rfl

/-- BC.CLOSE of a built core, in every mode (R126). -/
theorem exec_bcClose {s : State} (hb : s.built = true) : exec .bcClose s = .next (s.closeCursor.answer .ok 0) :=
  whenLegal_legal s CMode.any _ hb (any_eq_true s.cmode)

/-- Settles O24: PREV2 after the close is the two bits before POS on a readable cursor, and the old PREV2 elsewhere. -/
theorem bcCloseEndsTheCursor : Obligations.BcCloseEndsTheCursor := by
  intro s a
  refine ⟨decode_encode_cmd .bcClose rfl a, fun hb => ⟨if s.cmode.readable then s.prev2AtPos else s.prev2, ?_, ?_, ?_⟩, ?_⟩
  · rw [exec_bcClose hb, State.closeCursor_eq]
    rfl
  · rintro (hm | hm)
    all_goals rw [hm]; rfl
  · intro hm
    rw [if_pos ((readable_iff s.cmode).mpr hm)]
    exact ⟨prev2AtPos_of_pos_zero hm, prev2AtPos_of_pos_one hm, prev2AtPos_of_pos_add_two⟩
  · intro hb
    exact whenLegal_illegal s CMode.any _ (by simp [hb])

/-! ## Reading a cursor (R127 to R129, R133, R134 items 2 to 4) -/

/-! ### The bits of a value read -/

/-- `take` in RES: stream bit p + j stands in bit n - 1 - j (R15). -/
theorem getLsbD_takeBits (bs : List Bool) (p n j : Nat) (h : p + n ≤ bs.length) (hj : j < n) :
    (takeBits bs p n).getLsbD (n - 1 - j) = bs[p + j] := by
  rw [← getMsbD_takeBits bs p n j h hj, BitVec.getMsbD, decide_eq_true hj, Bool.true_and]

/-- A `take` of m + n bits is the `take` of m bits put before the `take` of the n bits after them (R15). -/
theorem takeBits_add (bs : List Bool) (p m n : Nat) (h : p + (m + n) ≤ bs.length) :
    takeBits bs p (m + n) = takeBits bs p m ++ takeBits bs (p + m) n := by
  apply BitVec.eq_of_getMsbD_eq
  intro j hj
  rw [getMsbD_takeBits bs p (m + n) j h hj, BitVec.getMsbD_append]
  by_cases hjm : j < m
  · rw [if_neg (by omega), getMsbD_takeBits bs p m j (by omega) hjm]
  · rw [if_pos (by omega), getMsbD_takeBits bs (p + m) n (j - m) (by omega) (by omega)]
    congr 1
    omega

/-- Two values put together, in one word: the first one shifted over the second. -/
theorem setWidth_append_eq_shiftLeft_or {m n : Nat} (x : BitVec m) (y : BitVec n) :
    (x ++ y).setWidth 32 = (x.setWidth 32 <<< n) ||| y.setWidth 32 := by
  apply BitVec.eq_of_getLsbD_eq
  intro i hi
  by_cases hin : i < n
  · simp [BitVec.getLsbD_append, hi, hin]
  · simp [BitVec.getLsbD_append, hi, hin, BitVec.getLsbD_of_ge y i (by omega)]

/-- `pack` (R63): bit j from the left is stream bit 8 * idx + j, or 0 past LEN. -/
theorem getMsbD_pack (bs : List Bool) (idx j : Nat) (hj : j < 8) : (pack bs idx).getMsbD j = bs.getD (8 * idx + j) false := by
  have h := getMsbD_takeBits ((List.range 8).map fun j => bs.getD (8 * idx + j) false) 0 8 j (by simp) hj
  rw [takeBits, List.drop_zero, List.take_of_length_le (by simp)] at h
  rw [List.getElem_map, List.getElem_range, Nat.zero_add] at h
  exact h

/-! ### BC.PEEK, BC.ADV, BC.POS and BC.RDB -/

/-- A command that fails does not answer OK. -/
theorem not_ok_of_failsWith {i : Instr} {s t : State} {st : Status} {res : Word} (h : FailsWith i s st) (hst : st ≠ .ok)
    (hexec : exec i s = .next t) : t.response ≠ some ⟨.ok, res⟩ := by
  obtain rfl : s.answer st 0 = t := Host.Outcome.next.inj (h.symm.trans hexec)
  intro hresp
  exact hst (congrArg Response.st (Option.some.inj hresp))

section Readable

variable {s : State} {n : BitVec 24} (hb : s.built = true) (hm : s.cmode = .decode ∨ s.cmode = .carry)
include hb hm

/-- A peek within the stream answers its bits and writes nothing (R127). -/
theorem exec_bcPeek_ok (hn : n.toNat ≤ 32) (hlen : n.toNat ≤ s.stream.length - s.pos) :
    exec (.bcPeek n) s = .next (s.answer .ok ((takeBits s.stream s.pos n.toNat).setWidth 32)) :=
  (exec_of_legal (exec_bcPeek hn s) (readable_iff s.cmode) hb hm).trans (if_pos hlen)

theorem bcPeek_failsWith_insufficientData (hn : n.toNat ≤ 32) (hlen : s.stream.length - s.pos < n.toNat) :
    FailsWith (.bcPeek n) s .insufficientData :=
  (exec_of_legal (exec_bcPeek hn s) (readable_iff s.cmode) hb hm).trans (if_neg (Nat.not_le.mpr hlen))

/-- An advance within the stream, to LEN at most (R128). -/
theorem exec_bcAdv_ok (hlen : s.pos + n.toNat ≤ s.stream.length) :
    exec (.bcAdv n) s = .next ((s.seek (s.pos + n.toNat)).answer .ok (resNat (s.pos + n.toNat))) :=
  (exec_of_legal rfl (readable_iff s.cmode) hb hm).trans (if_pos hlen)

theorem bcAdv_failsWith_outOfRange (hlen : s.stream.length < s.pos + n.toNat) : FailsWith (.bcAdv n) s .outOfRange :=
  (exec_of_legal rfl (readable_iff s.cmode) hb hm).trans (if_neg (Nat.not_le.mpr hlen))

/-- A peek succeeds exactly when its operand has a meaning and the bits are there (R134 item 2). -/
theorem exec_bcPeek_ok_iff : (∃ res, exec (.bcPeek n) s = .next (s.answer .ok res)) ↔
    (n.toNat ≤ 32 ∧ n.toNat ≤ s.stream.length - s.pos) := by
  constructor
  · rintro ⟨res, hexec⟩
    by_contra hnot
    obtain hn | hn : 33 ≤ n.toNat ∨ n.toNat ≤ 32 := by omega
    · exact not_ok_of_failsWith (bcPeek_failsWith_badCommand s hn) (by decide) hexec (State.answer_response s .ok res)
    · have hfail := bcPeek_failsWith_insufficientData hb hm hn (by omega)
      exact not_ok_of_failsWith hfail (by decide) hexec (State.answer_response s .ok res)
  · rintro ⟨hn, hlen⟩
    exact ⟨_, exec_bcPeek_ok hb hm hn hlen⟩

/-- An advance succeeds exactly when the bits are there (R134 item 3). -/
theorem exec_bcAdv_ok_iff (hpos : s.pos ≤ s.stream.length) :
    (∃ t, exec (.bcAdv n) s = .next t ∧ t.pos = s.pos + n.toNat ∧ ∃ res, t.response = some ⟨.ok, res⟩) ↔
      n.toNat ≤ s.stream.length - s.pos := by
  constructor
  · rintro ⟨t, hexec, -, res, hresp⟩
    by_contra hnot
    exact not_ok_of_failsWith (bcAdv_failsWith_outOfRange hb hm (by omega)) (by decide) hexec hresp
  · intro hlen
    exact ⟨_, exec_bcAdv_ok hb hm (by omega), rfl, _, rfl⟩

end Readable

/-- Settles O25: the four answers of BC.PEEK in the order of R288, and the bits of the value read. -/
theorem bcPeekReadsWithoutAdvancing : Obligations.BcPeekReadsWithoutAdvancing := by
  intro n s a
  refine ⟨decode_encode_cmd (.bcPeek n) rfl a, bcPeek_failsWith_badCommand s,
    fun hn => failsWith_wrongMode (exec_bcPeek hn s) (readable_iff s.cmode),
    fun hn hb hm => bcPeek_failsWith_insufficientData hb hm hn, fun hn hb hm hlen =>
    ⟨_, exec_bcPeek_ok hb hm hn hlen, fun j hj => ?_, fun k hk => ?_⟩⟩
  · rw [BitVec.getLsbD_setWidth, getLsbD_takeBits s.stream s.pos n.toNat j (by omega) hj, decide_eq_true (by omega),
      Bool.true_and, List.getElem?_eq_getElem]
  · rw [BitVec.getLsbD_setWidth, BitVec.getLsbD_of_ge _ k hk, Bool.and_false]

/-- Settles O26: behind the mode check, the two sides of the test `POS + N <= LEN`. -/
theorem bcAdvMovesThePosition : Obligations.BcAdvMovesThePosition := fun n s a =>
  ⟨decode_encode_cmd (.bcAdv n) rfl a, failsWith_wrongMode rfl (readable_iff s.cmode),
    bcAdv_failsWith_outOfRange, exec_bcAdv_ok⟩

/-- RDREG POS of a built core (R261). -/
theorem exec_rdreg_pos {s : State} (hb : s.built = true) : exec (.rdreg 2) s = .next (s.answer .ok (resNat s.pos)) :=
  whenLegal_legal s CMode.any _ hb (any_eq_true s.cmode)

/-- BC.POS on an open cursor (R129). -/
theorem exec_bcPos {s : State} (hb : s.built = true) (hm : s.cmode ≠ .closed) :
    exec .bcPos s = .next (s.answer .ok (resNat s.pos)) :=
  exec_of_legal rfl (hasCursor_iff s.cmode) hb hm

/-- Settles O27: both commands answer POS, which R39 makes 0 in mode Closed and LEN in mode Encode. -/
theorem bcPosReturnsThePosition : Obligations.BcPosReturnsThePosition := by
  intro s a
  refine ⟨decode_encode_cmd .bcPos rfl a, exec_bcPos, exec_rdreg_pos, fun hb hsound hm => ?_, fun hb hsound hm => ?_,
    failsWith_wrongMode rfl (hasCursor_iff s.cmode)⟩
  · obtain ⟨-, hpos⟩ := hsound.closed hm
    rw [exec_rdreg_pos hb, hpos]
    rfl
  · rw [exec_bcPos hb (by rw [hm]; decide), hsound.encode_end hm]
    rfl

/-- Settles O31: behind the mode check, the two sides of the test `8 * idx < LEN`, and the bits of `pack`. -/
theorem bcRdbReadsAPackedByte : Obligations.BcRdbReadsAPackedByte := by
  intro idx s a
  have hmode := hasCursor_iff s.cmode
  refine ⟨decode_encode_cmd (.bcRdb idx) rfl a, failsWith_wrongMode rfl hmode, fun hb hm hlen => ?_, fun hb hm hlen =>
    ⟨(pack s.stream idx.toNat).setWidth 32, ?_, fun j hj => ?_, fun k hk => ?_⟩⟩
  · exact (exec_of_legal rfl hmode hb hm).trans (if_neg (Nat.not_lt.mpr hlen))
  · exact (exec_of_legal rfl hmode hb hm).trans (if_pos hlen)
  · rw [← getMsbD_pack s.stream idx.toNat j hj, BitVec.getLsbD_setWidth, decide_eq_true (by omega), Bool.true_and,
      BitVec.getMsbD, decide_eq_true hj, Bool.true_and]
  · rw [BitVec.getLsbD_setWidth, BitVec.getLsbD_of_ge _ k hk, Bool.and_false]

/-- Settles O32: when a peek and an advance answer OK, and `takeBits_add` for the split. -/
theorem peekSplitsAtEveryPoint : Obligations.PeekSplitsAtEveryPoint := by
  refine ⟨fun s n hb hm hpos => ⟨exec_bcPeek_ok_iff hb hm, exec_bcAdv_ok_iff hb hm hpos⟩,
    fun s m n k hmn hk hb hm hlen => ?_⟩
  have hpeekTail := exec_bcPeek_ok (s := (s.seek (s.pos + m.toNat)).answer .ok (resNat (s.pos + m.toNat))) (n := n) hb hm
    (by omega) (by simp; omega)
  refine ⟨_, _, _, _, exec_bcPeek_ok hb hm hk (by omega), exec_bcPeek_ok hb hm (by omega) (by omega),
    exec_bcAdv_ok hb hm (by omega), hpeekTail, ?_⟩
  rw [← hmn, takeBits_add s.stream s.pos m.toNat n.toNat (by omega)]
  exact setWidth_append_eq_shiftLeft_or _ _

/-! ## Writing and dropping bits (R130 to R132) -/

/-! ### BC.PUT (R130) -/

@[simp] theorem length_putBits (n : Nat) (v : Word) : (putBits n v).length = n := length_bitsOf n _

/-- Bit j of the bits BC.PUT appends is ARG[n - 1 - j] (R93). -/
theorem getElem?_putBits (n : Nat) (v : Word) (j : Nat) (hj : j < n) : (putBits n v)[j]? = some (v.getLsbD (n - 1 - j)) := by
  have hlast : n - 1 - j < n := by omega
  rw [List.getElem?_eq_getElem (by simpa using hj)]
  simp [putBits, BitVec.getMsbD, hj, hlast]

/-- What BC.PUT wrote reads back (R130). -/
theorem takeBits_putBits (bs : List Bool) (n : Nat) (v : Word) : takeBits (bs ++ putBits n v) bs.length n = v.setWidth n := by
  have h := takeBits_append_bitsOf bs n (v.setWidth n) []
  rwa [List.append_nil] at h

/-- Settles O28: behind the mode check, the two sides of the capacity test, and the laws of the bits put. -/
theorem bcPutAppendsTheLowBits : Obligations.BcPutAppendsTheLowBits := by
  intro n v s
  have hmode := writable_iff s.cmode
  refine ⟨decodeOfEncodeIsTheCommand (.bcPut n v), bcPut_failsWith_badCommand s v,
    fun hn => failsWith_wrongMode (exec_bcPut hn v s) hmode, fun hn hb hm hfull => ?_, fun hn hb hm hroom =>
    ⟨putBits n.toNat v, ?_, length_putBits n.toNat v, getElem?_putBits n.toNat v, takeBits_putBits s.stream n.toNat v⟩⟩
  · exact (exec_of_legal (exec_bcPut hn v s) hmode hb hm).trans (if_neg (by rw [fits_iff]; omega))
  · have hend : (s.appendBits (putBits n.toNat v)).seekEnd =
        { s with stream := s.stream ++ putBits n.toNat v, pos := s.stream.length + n.toNat } := by
      simp [State.seekEnd, State.seek, State.appendBits]
    have hexec := (exec_of_legal (exec_bcPut hn v s) hmode hb hm).trans (if_pos ((fits_iff s _).mpr hroom))
    rw [hend] at hexec
    exact hexec

/-! ### BC.APPEND (R131) -/

section Append

variable {s : State} {b : Byte} {p : BitVec 3} (hb : s.built = true) (hm : s.cmode = .carry)
include hb hm

/-- BC.APPEND with room for the byte's data bits (R131). -/
theorem exec_bcAppend_ok (hroom : s.stream.length + (8 - p.toNat) ≤ capBits) : exec (.bcAppend b p) s =
    .next ((s.appendBits (dataBits b p)).answer .ok (resNat (s.stream.length + (8 - p.toNat)))) :=
  (exec_of_legal rfl (carried_iff s.cmode) hb hm).trans (if_pos ((fits_iff s _).mpr hroom))

theorem bcAppend_failsWith_outOfRange (hfull : capBits < s.stream.length + (8 - p.toNat)) :
    FailsWith (.bcAppend b p) s .outOfRange :=
  (exec_of_legal rfl (carried_iff s.cmode) hb hm).trans (if_neg (by rw [fits_iff]; omega))

end Append

/-- Data bit j of a byte is its bit 7 - j (R60). -/
theorem getElem?_dataBits (b : Byte) (p : BitVec 3) (j : Nat) (hj : j < 8 - p.toNat) :
    (dataBits b p)[j]? = some (b.getLsbD (7 - j)) := by
  have hj8 : j < 8 := by omega
  rw [List.getElem?_eq_getElem (by simpa using hj), getElem_dataBits, BitVec.getMsbD, decide_eq_true hj8, Bool.true_and]

/-- One entry more in the staging buffer is its data bits more in the padded stream (R62). -/
theorem strip_concat (sb : List SBEntry) (b : Byte) (p : BitVec 3) :
    strip (sb ++ [⟨b, p⟩]) true = strip sb true ++ dataBits b p := by
  rw [strip_append, strip_cons, strip_nil, List.append_nil, if_pos rfl]

/-- Settles O29: the two sides of the capacity test, and the laws of the data bits. -/
theorem bcAppendAddsTheDataBits : Obligations.BcAppendAddsTheDataBits := by
  intro b p s a
  refine ⟨decode_encode_cmd (.bcAppend b p) rfl a, failsWith_wrongMode rfl (carried_iff s.cmode),
    bcAppend_failsWith_outOfRange, fun hb hm hroom =>
    ⟨dataBits b p, exec_bcAppend_ok hb hm hroom, length_dataBits b p, getElem?_dataBits b p, fun sb hsb => ?_⟩⟩
  rw [strip_concat, hsb]

/-! ### BC.DROP (R132) -/

/-- Settles O30: PREV2 becomes the two bits before POS, and the laws of `prev2At` and `takeBits` under a drop. -/
theorem bcDropDiscardsTheConsumedBits : Obligations.BcDropDiscardsTheConsumedBits := by
  intro s a
  refine ⟨decode_encode_cmd .bcDrop rfl a, failsWith_wrongMode rfl (carried_iff s.cmode), fun hb hcarry => ?_⟩
  have hm : s.cmode = .decode ∨ s.cmode = .carry := .inr hcarry
  refine ⟨s.prev2AtPos, exec_of_legal rfl (carried_iff s.cmode) hb hcarry, prev2AtPos_of_pos_zero hm,
    prev2AtPos_of_pos_one hm, prev2AtPos_of_pos_add_two, fun hpos k n => ⟨?_, takeBits_drop s.stream s.pos k n⟩⟩
  rw [State.prev2AtPos, State.carryBits_of_readable hm]
  exact prev2At_drop s.prev2 s.stream s.pos k hpos

/-! ## Padded, dense and packed forms of one stream (R134 items 6 and 7) -/

/-! ### Appending byte by byte -/

/-- A sequence goes on after a command that answers OK (R98). -/
theorem issue_cons_ok {i : Instr} {rest : List Instr} {s t : State} {res : Word}
    (hexec : exec i s = .next (t.answer .ok res)) :
    issue (i :: rest) s = (⟨.ok, res⟩ :: (issue rest (t.answer .ok res)).1, (issue rest (t.answer .ok res)).2) := by
  simp [issue, hexec]

/-- Appending entries to a Carry cursor with room for all their data bits: every command answers, and the stream grows by the
padded stream of the entries (R131, R62). -/
theorem issue_bcAppend (entries : List SBEntry) (s : State) (hb : s.built = true) (hm : s.cmode = .carry)
    (hroom : s.stream.length + (strip entries true).length ≤ capBits) :
    (issue (entries.map fun e => .bcAppend e.byte e.pad) s).2.stream = s.stream ++ strip entries true ∧
      (issue (entries.map fun e => .bcAppend e.byte e.pad) s).1.length = entries.length := by
  induction entries generalizing s with
  | nil => exact ⟨(List.append_nil s.stream).symm, rfl⟩
  | cons e rest ih =>
    rw [strip_cons, if_pos rfl] at hroom ⊢
    rw [List.length_append, length_dataBits] at hroom
    rw [List.map_cons, issue_cons_ok (exec_bcAppend_ok hb hm (by omega))]
    obtain ⟨hstream, hcount⟩ := ih ((s.appendBits (dataBits e.byte e.pad)).answer .ok _) hb hm (by simp; omega)
    exact ⟨hstream.trans (List.append_assoc _ _ _), congrArg Nat.succ hcount⟩

/-! ### Bytes that pack a stream densely -/

/-- The bits of a `take` are the stream bits taken (R15). -/
theorem bitsOf_takeBits (bs : List Bool) (p n : Nat) (h : p + n ≤ bs.length) :
    bitsOf n (takeBits bs p n) = (bs.drop p).take n := by
  refine List.ext_getElem (by simp; omega) fun j hj _ => ?_
  rw [getElem_bitsOf, getMsbD_takeBits bs p n j h (by simpa using hj)]
  simp

/-- Bytes whose bits are those of a stream, 8 at a time, give it back when they are loaded without padding (R62). -/
theorem strip_of_dense (dense : List SBEntry) (bs : List Bool) (hlen : bs.length = 8 * dense.length)
    (hbyte : ∀ (i : Nat) (h : i < dense.length), dense[i].byte = takeBits bs (8 * i) 8) : strip dense false = bs := by
  induction dense generalizing bs with
  | nil => exact (List.length_eq_zero_iff.mp hlen).symm
  | cons e rest ih =>
    rw [List.length_cons] at hlen
    have hfirst : dataBits e.byte 0 = bs.take 8 := by
      have h0 : e.byte = takeBits bs 0 8 := hbyte 0 (Nat.zero_lt_succ _)
      rw [h0, dataBits, bitsOf_takeBits bs 0 8 (by omega)]
      simp
    have hrest : strip rest false = bs.drop 8 := ih (bs.drop 8) (by rw [List.length_drop]; omega) fun i hi => by
      rw [takeBits_drop, Nat.add_comm 8, ← Nat.mul_succ]
      exact hbyte (i + 1) (Nat.succ_lt_succ hi)
    rw [strip_cons, if_neg Bool.false_ne_true, hfirst, hrest, List.take_append_drop]

/-- Settles O33: `issue_bcAppend` from the empty stream, and `strip_of_dense` over the padded stream. -/
theorem paddedAndDenseStreamsAgree : Obligations.PaddedAndDenseStreamsAgree := by
  refine ⟨fun entries s hb hm hempty hroom => ?_, fun entries dense => strip_of_dense dense (strip entries true)⟩
  have h := issue_bcAppend entries s hb hm (by rwa [hempty, List.length_nil, Nat.zero_add])
  rwa [hempty, List.nil_append] at h

/-! ### Reading out and loading again -/

/-- A byte of `pack` that lies within the stream is the `take` of its 8 bits (R63). -/
theorem pack_eq_takeBits (bs : List Bool) (idx : Nat) (h : 8 * idx + 8 ≤ bs.length) :
    pack bs idx = takeBits bs (8 * idx) 8 := by
  refine BitVec.eq_of_getMsbD_eq fun j hj => ?_
  rw [getMsbD_pack bs idx j hj, getMsbD_takeBits bs (8 * idx) 8 j h hj, List.getD_eq_getElem]

/-- Zero bits after the end do not change the bytes of `pack`: it fills with zeros itself (R63). -/
theorem pack_append_zeros (bs : List Bool) (m idx : Nat) : pack (bs ++ List.replicate m false) idx = pack bs idx := by
  have hzero : ∀ q, (bs ++ List.replicate m false).getD q false = bs.getD q false := by
    intro q
    obtain hq | hq := Nat.lt_or_ge q bs.length
    · rw [List.getD_append _ _ _ _ hq]
    · rw [List.getD_append_right _ _ _ _ hq, List.getD_eq_default _ _ hq]
      simp
  refine BitVec.eq_of_getMsbD_eq fun j hj => ?_
  rw [getMsbD_pack _ idx j hj, getMsbD_pack bs idx j hj, hzero]

/-- Settles O34: the bytes read out pack densely the stream with its zero bits after it. -/
theorem readOutThenLoadGivesTheStream : Obligations.ReadOutThenLoadGivesTheStream := by
  refine fun bs => ⟨strip_of_dense _ _ ?_ fun i hi => ?_, by omega⟩
  · simp; omega
  · have hi8 : i < (bs.length + 7) / 8 := by simpa using hi
    rw [← pack_eq_takeBits _ i (by simp; omega), pack_append_zeros]
    simp

end Sys2Proof.Machine

/-! ## Proofs for 41_parity_engine: the parity relation, the encoded word, PAR.COMP and PAR.VRFY

The parity, the correction and so the check of a word are linear in the word and the carried bits together. What R166 says of
every word is by that a fact about single bits: one flipped bit, one wrong carry, one value of the last two data bits. -/

namespace Sys2Proof.Machine

/-! ### `xor_reduce` (R13) -/

/-- The middle two of four bits change places in their sum. -/
theorem xor_xor_xor_comm : ∀ a b c d : Bool, xor (xor a b) (xor c d) = xor (xor a c) (xor b d) := by decide

/-- The sum of the termwise sums of two lists of bits is the sum of their sums. -/
theorem foldl_xor_map_xor (ks : List Nat) (f g : Nat → Bool) (a b : Bool) :
    (ks.map fun k => xor (f k) (g k)).foldl xor (xor a b) = xor ((ks.map f).foldl xor a) ((ks.map g).foldl xor b) := by
  induction ks generalizing a b with
  | nil => rfl
  | cons k ks ih =>
    simp only [List.map_cons, List.foldl_cons]
    rw [xor_xor_xor_comm, ih]

/-- Bits that a mask clears add nothing to a sum. -/
theorem foldl_xor_map_and (ks : List Nat) (f m : Nat → Bool) (a : Bool) :
    (ks.map fun k => f k && m k).foldl xor a = ((ks.filter m).map f).foldl xor a := by
  induction ks generalizing a with
  | nil => rfl
  | cons k ks ih =>
    rw [List.map_cons, List.foldl_cons, ih]
    cases hm : m k
    · rw [List.filter_cons_of_neg (by simp [hm]), Bool.and_false, Bool.xor_false]
    · rw [List.filter_cons_of_pos hm, Bool.and_true, List.map_cons, List.foldl_cons]

theorem xorReduce_xor (v w : BitVec 24) : xorReduce (v ^^^ w) = xor (xorReduce v) (xorReduce w) := by
  have hbits : (v ^^^ w).getMsbD = fun k => xor (v.getMsbD k) (w.getMsbD k) := funext fun k => BitVec.getMsbD_xor
  rw [xorReduce, bitsOf, hbits]
  exact foldl_xor_map_xor (List.range 24) v.getMsbD w.getMsbD false false

/-- The 24 bits of a value as d1 to d24, where `d1 = d[23]` (R14). -/
theorem bitsOf_eq_map_getLsbD (v : BitVec 24) : bitsOf 24 v = (List.range' 1 24).map fun k => v.getLsbD (24 - k) := by
  rw [bitsOf, List.range'_eq_map_range, List.map_map]
  refine List.map_congr_left fun j hj => ?_
  rw [BitVec.getMsbD, decide_eq_true (List.mem_range.mp hj), Bool.true_and, Function.comp_apply, Nat.sub_sub]

/-- The numbers k of the data bits dk that a mask selects (R161). -/
def maskedBits (mask : BitVec 24) : List Nat := (List.range' 1 24).filter fun k => mask.getLsbD (24 - k)

/-- `xor_reduce(d & mask)` is the sum of the data bits that the mask selects. -/
theorem xorReduce_and (d mask : BitVec 24) :
    xorReduce (d &&& mask) = ((maskedBits mask).map fun k => d.getLsbD (24 - k)).foldl xor false := by
  rw [xorReduce, bitsOf_eq_map_getLsbD]
  simp only [BitVec.getLsbD_and]
  exact foldl_xor_map_and _ _ _ false

/-! ### The parity relation (R161, R166) -/

/-- Bit 5 - j of the parity is equation j of the table (R161). -/
theorem getLsbD_parity (d : BitVec 24) (p : BitVec 2) (j : Nat) (hj : j < 6) :
    (parity d p).getLsbD (5 - j) = parityBit parityRows[j] d p := by
  have h := getLsbD_takeBits (parityRows.map fun row => parityBit row d p) 0 6 j (Nat.le_refl 6) hj
  simp only [Nat.zero_add, List.getElem_map] at h
  exact h

/-- An equation whose mask selects the data bits ks is the sum of its carried bit and those data bits (R161). -/
theorem parityBit_eq_sum (row : ParityRow) (ks : List Nat) (hks : maskedBits row.mask = ks) (d : BitVec 24) (p : BitVec 2) :
    parityBit row d p = xor (p.getLsbD row.carried) ((ks.map fun k => d.getLsbD (24 - k)).foldl xor false) := by
  rw [parityBit, xorReduce_and, hks]

/-- Settles O38: each parity bit is its row of the table, and each mask selects the data bits of its equation. -/
theorem parityIsTheSixEquations : Obligations.ParityIsTheSixEquations := by
  intro d p
  have hmask := getLsbD_parity d p
  have hsum : ∀ (j : Nat) (hj : j < 6) (ks : List Nat), maskedBits parityRows[j].mask = ks →
      (parity d p).getLsbD (5 - j) =
        xor (p.getLsbD parityRows[j].carried) ((ks.map fun k => d.getLsbD (24 - k)).foldl xor false) :=
    fun j hj ks hks => (hmask j hj).trans (parityBit_eq_sum _ ks hks d p)
  exact ⟨hsum 0 (by decide) _ (by decide), hsum 1 (by decide) _ (by decide), hsum 2 (by decide) _ (by decide),
    hsum 3 (by decide) _ (by decide), hsum 4 (by decide) _ (by decide), hsum 5 (by decide) _ (by decide),
    hmask 0 (by decide), hmask 1 (by decide), hmask 2 (by decide), hmask 3 (by decide), hmask 4 (by decide),
    hmask 5 (by decide)⟩

theorem parityBit_xor (row : ParityRow) (d e : BitVec 24) (p q : BitVec 2) :
    parityBit row (d ^^^ e) (p ^^^ q) = xor (parityBit row d p) (parityBit row e q) := by
  have hand : (d ^^^ e) &&& row.mask = (d &&& row.mask) ^^^ (e &&& row.mask) :=
    BitVec.eq_of_getLsbD_eq fun i _ => by
      simp only [BitVec.getLsbD_and, BitVec.getLsbD_xor, Bool.and_xor_distrib_right]
  rw [parityBit, hand, xorReduce_xor, BitVec.getLsbD_xor, xor_xor_xor_comm, parityBit, parityBit]

/-- PAR is linear (R166 item 1). -/
theorem parity_xor (d e : BitVec 24) (p q : BitVec 2) : parity (d ^^^ e) (p ^^^ q) = parity d p ^^^ parity e q := by
  refine BitVec.eq_of_getLsbD_eq fun i hi => ?_
  obtain ⟨j, hj, rfl⟩ : ∃ j < 6, i = 5 - j := ⟨5 - i, by omega, by omega⟩
  rw [BitVec.getLsbD_xor, getLsbD_parity _ _ j hj, getLsbD_parity _ _ j hj, getLsbD_parity _ _ j hj, parityBit_xor]

/-- A change of the data bits alone changes the parity by the parity of the change. -/
theorem parity_xor_left (d e : BitVec 24) (p : BitVec 2) : parity (d ^^^ e) p = parity d p ^^^ parity e 0 := by
  simpa using parity_xor d e p 0

/-- The parity of an all-zero word is the pattern of the carried bits alone (R162). -/
theorem parity_zero : parity 0 0 = 0x00 ∧ parity 0 1 = 0x16 ∧ parity 0 2 = 0x29 ∧ parity 0 3 = 0x3F := by decide

/-- Different carried bits give a different parity (R166 item 4). -/
theorem parity_carried_injective (d : BitVec 24) {p q : BitVec 2} (h : parity d p = parity d q) : p = q := by
  have hzero : ∀ r : BitVec 2, parity 0 r = 0 → r = 0 := by decide
  have hdiff : parity 0 (p ^^^ q) = 0 := by simpa [h] using parity_xor d d p q
  exact BitVec.xor_eq_zero_iff.mp (hzero _ hdiff)

/-! ### The polarity correction and the encoded word (R160, R164) -/

/-- The correction adds D30* to every data bit (R160). -/
theorem getLsbD_correct (d : BitVec 24) (p : BitVec 2) (i : Nat) (hi : i < 24) :
    (correct d p).getLsbD i = xor (d.getLsbD i) (p.getLsbD 0) := by
  cases hp : p.getLsbD 0
  · rw [correct, hp, if_neg Bool.false_ne_true, Bool.xor_false]
  · rw [correct, hp, if_pos rfl, BitVec.getLsbD_not, decide_eq_true hi, Bool.true_and, Bool.xor_true]

/-- The correction is linear in the data and the carried bits together. -/
theorem correct_xor (d e : BitVec 24) (p q : BitVec 2) : correct (d ^^^ e) (p ^^^ q) = correct d p ^^^ correct e q := by
  refine BitVec.eq_of_getLsbD_eq fun i hi => ?_
  simp only [getLsbD_correct _ _ i hi, BitVec.getLsbD_xor]
  exact xor_xor_xor_comm _ _ _ _

/-- The correction is its own inverse (R160). -/
@[simp] theorem correct_correct (d : BitVec 24) (p : BitVec 2) : correct (correct d p) p = d := by
  refine BitVec.eq_of_getLsbD_eq fun i hi => ?_
  rw [getLsbD_correct _ p i hi, getLsbD_correct d p i hi, Bool.xor_assoc, Bool.xor_self, Bool.xor_false]

theorem extractLsb'_encword_data (d : BitVec 24) (p : BitVec 2) : (encword d p).extractLsb' 6 24 = correct d p :=
  BitVec.extractLsb'_append_eq_left

theorem extractLsb'_encword_parity (d : BitVec 24) (p : BitVec 2) : (encword d p).extractLsb' 0 6 = parity d p :=
  BitVec.extractLsb'_append_eq_right

@[simp] theorem wordData_encword (d : BitVec 24) (p : BitVec 2) : wordData (encword d p) p = d := by
  rw [wordData, extractLsb'_encword_data, correct_correct]

theorem wordOk_iff (w : BitVec 30) (p : BitVec 2) :
    wordOk w p = true ↔ parity (wordData w p) p = w.extractLsb' 0 6 := beq_iff_eq

/-- An encoded word verifies (R164). -/
@[simp] theorem wordOk_encword (d : BitVec 24) (p : BitVec 2) : wordOk (encword d p) p = true := by
  rw [wordOk_iff, wordData_encword, extractLsb'_encword_parity]

/-- Settles O39: the two sides of the correction, and the laws of the encoded word. -/
theorem encodedWordsVerify : Obligations.EncodedWordsVerify := fun d p w =>
  ⟨correct_correct d p, fun hp => if_neg (by rw [hp]; decide), fun hp => if_pos hp, extractLsb'_encword_data d p,
    extractLsb'_encword_parity d p, rfl, wordOk_iff w p, wordData_encword d p, wordOk_encword d p⟩

/-! ### What the check detects and the last two data bits steer (R166) -/

/-- Data of a single 1 bit have at least three parity bits set: each data bit is in three of the six subsets (R166
item 2). -/
theorem three_le_countP_parity_oneBit :
    ∀ k < 24, 3 ≤ (List.range 6).countP fun j => (parity (1#24 <<< k) 0).getLsbD j := by decide +kernel

/-- Flipping a data bit changes at least three parity bits (R166 item 2). -/
theorem three_le_countP_parity_flip (d : BitVec 24) (p : BitVec 2) {k : Nat} (hk : k < 24) :
    3 ≤ (List.range 6).countP fun j => (parity (d ^^^ (1#24 <<< k)) p).getLsbD j != (parity d p).getLsbD j := by
  have hbit : ∀ a b : Bool, ((a ^^ b) != a) = b := by decide
  simp only [parity_xor_left, BitVec.getLsbD_xor, hbit]
  exact three_le_countP_parity_oneBit k hk

/-- A change to a valid word and its carried bits goes unnoticed exactly when the change itself verifies. -/
theorem wordOk_xor {w : BitVec 30} {p : BitVec 2} (h : wordOk w p = true) (x : BitVec 30) (q : BitVec 2) :
    wordOk (w ^^^ x) (p ^^^ q) = wordOk x q := by
  have hdata : wordData (w ^^^ x) (p ^^^ q) = wordData w p ^^^ wordData x q := by
    rw [wordData, BitVec.extractLsb'_xor, correct_xor, wordData, wordData]
  rw [Bool.eq_iff_iff, wordOk_iff, wordOk_iff, hdata, parity_xor, BitVec.extractLsb'_xor, (wordOk_iff w p).mp h,
    BitVec.xor_right_inj]

/-- The all-zero word verifies after 00 only (R163). -/
theorem wordOk_zero_iff : ∀ p : BitVec 2, wordOk 0 p = true ↔ p = 0 := by decide

/-- No word of a single 1 bit verifies after 00. -/
theorem wordOk_oneBit : ∀ k < 30, wordOk (1#30 <<< k) 0 = false := by decide +kernel

/-- Flipping a bit of a valid word makes it fail (R166 items 2 and 3). -/
theorem wordOk_flip {w : BitVec 30} {p : BitVec 2} {k : Nat} (hk : k < 30) (h : wordOk w p = true) :
    wordOk (w ^^^ (1#30 <<< k)) p = false := by
  have hflip : wordOk (w ^^^ (1#30 <<< k)) p = wordOk (1#30 <<< k) 0 := by simpa using wordOk_xor h (1#30 <<< k) 0
  rw [hflip, wordOk_oneBit k hk]

/-- Wrong carried bits make a valid word fail (R166 item 4). -/
theorem wordOk_wrong_carried {w : BitVec 30} {p q : BitVec 2} (hpq : p ≠ q) (h : wordOk w p = true) :
    wordOk w q = false := by
  have hcarry : wordOk w q = wordOk 0 (p ^^^ q) := by simpa [← BitVec.xor_assoc] using wordOk_xor h 0 (p ^^^ q)
  rw [hcarry, ← Bool.not_eq_true, wordOk_zero_iff]
  exact fun heq => hpq (BitVec.xor_eq_zero_iff.mp heq)

/-- Two bits put in place of the last two data bits, when those are 0, are added to the data. -/
theorem or_eq_xor_of_low {d : BitVec 24} (hd : d.extractLsb' 0 2 = 0) (t : BitVec 2) :
    d ||| t.setWidth 24 = d ^^^ t.setWidth 24 := by
  refine BitVec.eq_of_getLsbD_eq fun i hi => ?_
  rw [BitVec.getLsbD_or, BitVec.getLsbD_xor]
  by_cases hlow : i < 2
  · have hbit : d.getLsbD i = false := by
      simpa [hlow] using congrArg (fun v => v.getLsbD i) hd
    rw [hbit, Bool.false_or, Bool.false_xor]
  · have hbit : (t.setWidth 24).getLsbD i = false := by
      rw [BitVec.getLsbD_setWidth, BitVec.getLsbD_of_ge t i (by omega), Bool.and_false]
    rw [hbit, Bool.or_false, Bool.xor_false]

/-- Each value of the last two parity bits is cancelled by exactly one value of the last two data bits (R166 item 5). -/
theorem exists_steering : ∀ c : BitVec 2, ∃ t : BitVec 2, ∀ u : BitVec 2,
    c ^^^ (parity (u.setWidth 24) 0).extractLsb' 0 2 = 0 ↔ u = t := by decide +kernel

/-- Exactly one value of the free last two data bits makes the last two parity bits 0 (R166 item 5). -/
theorem exists_parity_low_eq_zero {d : BitVec 24} (hd : d.extractLsb' 0 2 = 0) (p : BitVec 2) :
    ∃ t : BitVec 2, ∀ u : BitVec 2, (parity (d ||| u.setWidth 24) p).extractLsb' 0 2 = 0 ↔ u = t := by
  obtain ⟨t, ht⟩ := exists_steering ((parity d p).extractLsb' 0 2)
  refine ⟨t, fun u => ?_⟩
  rw [← ht u, or_eq_xor_of_low hd, parity_xor_left, BitVec.extractLsb'_xor]

/-- A data value below 4 is its last two bits. -/
theorem setWidth_setWidth_of_lt_four {u : BitVec 24} (hu : u.toNat < 4) : (u.setWidth 2).setWidth 24 = u := by
  apply BitVec.eq_of_toNat_eq
  simp only [BitVec.toNat_setWidth]
  omega

/-- Settles O40: linearity, and by it the facts about single bits, for every word and carry. -/
theorem parityPropertiesHold : Obligations.ParityPropertiesHold := by
  refine ⟨parity_xor, parity_zero.1, by decide, fun d p k => three_le_countP_parity_flip d p, fun w p k => wordOk_flip,
    fun d p q hpq heq => hpq (parity_carried_injective d heq), parity_zero, fun w p q => wordOk_wrong_carried,
    fun d p hd => ?_⟩
  obtain ⟨t, ht⟩ := exists_parity_low_eq_zero hd p
  refine ⟨t.setWidth 24, by simp; omega, (ht t).mpr rfl, fun u hu hsolved => ?_⟩
  rw [← setWidth_setWidth_of_lt_four hu] at hsolved ⊢
  rw [(ht _).mp hsolved]

/-! ### PAR.COMP and PAR.VRFY (R162, R163) -/

/-- Before the first INIT every command behind a mode check fails with WrongMode (R120). -/
theorem failsWith_wrongMode_of_not_built {i : Instr} {s : State} {legal : CMode → Bool} {k : Result}
    (hexec : exec i s = whenLegal s legal k) (hb : s.built = false) : FailsWith i s .wrongMode :=
  hexec.trans (whenLegal_illegal s legal k (by simp [hb]))

/-- Settles O36: behind the mode check PAR.COMP answers the parity of the fields of ARG. -/
theorem parCompReturnsTheParity : Obligations.ParCompReturnsTheParity := fun v s =>
  ⟨decodeOfEncodeIsTheCommand (.parComp v), fun hb => whenLegal_legal s CMode.any _ hb (any_eq_true s.cmode),
    failsWith_wrongMode_of_not_built rfl, parity_zero⟩

/-- A field of the word in ARG is a field of ARG, two bits higher (R93). -/
theorem extractLsb'_parWord (v : Word) (start len : Nat) (h : start + len ≤ 30) :
    (parWord v).extractLsb' start len = v.extractLsb' (2 + start) len := by
  refine BitVec.eq_of_getLsbD_eq fun i hi => ?_
  have hin : start + i < 30 := by omega
  simp only [parWord, BitVec.getLsbD_extractLsb', hi, hin, decide_true, Bool.true_and, Nat.add_assoc]

/-- The check of the word in ARG, by the fields of ARG (R163): W[29:6] = ARG[31:8] and W[5:0] = ARG[7:2]. -/
theorem wordOk_parWord (v : Word) : wordOk (parWord v) (parPrev2 v) = true ↔
    parity (correct (v.extractLsb' 8 24) (v.extractLsb' 0 2)) (v.extractLsb' 0 2) = v.extractLsb' 2 6 := by
  rw [wordOk_iff, wordData, extractLsb'_parWord v 6 24 (by decide), extractLsb'_parWord v 0 6 (by decide), parPrev2]

/-- PAR.VRFY of a built core answers whether the word in ARG verifies (R163). -/
theorem exec_parVrfy {v : Word} {s : State} (hb : s.built = true) :
    exec (.parVrfy v) s = .next (s.answer .ok (if wordOk (parWord v) (parPrev2 v) then 1 else 0)) :=
  whenLegal_legal s CMode.any _ hb (any_eq_true s.cmode)

/-- Settles O37: behind the mode check PAR.VRFY answers the check of the word in ARG. -/
theorem parVrfyChecksTheWord : Obligations.ParVrfyChecksTheWord := by
  refine fun v s => ⟨decodeOfEncodeIsTheCommand (.parVrfy v), fun hb => ?_, failsWith_wrongMode_of_not_built rfl,
    wordOk_zero_iff, by decide⟩
  rw [exec_parVrfy hb]
  simp only [wordOk_parWord]

end Sys2Proof.Machine

/-! ## Proofs for 42_synchronizer: SYNC.SCAN, and the scan as a walk over the stream

A turn of the scan of R181 has five branches: too few bits for a preamble, no preamble, a preamble with too few bits after it, a
candidate that is accepted, a candidate that is rejected. `scanFrom` has one equation for each and an induction principle over
them, so no proof counts the turns of the loop. -/

namespace Sys2Proof.Machine

/-! ### One turn of a scan (R181) -/

/-- A candidate: a preamble with the 300 bits of a subframe there (R181). -/
def StandsAt (v : View) (q : Nat) : Prop := q + 300 ≤ v.stream.length ∧ takeBits v.stream q 8 = preamble

/-- The candidate at q is rejected, for one reason or for both (R182). -/
def RejectedAt (v : View) (q : Nat) : Prop :=
  rejectedUnsup (decodeSubframe v q) = true ∨ rejectedParity v (decodeSubframe v q) = true

theorem acceptable_iff (v : View) (q : Nat) : acceptable v q ↔ StandsAt v q ∧ ¬ RejectedAt v q := by
  simp only [acceptable, StandsAt, RejectedAt, not_or, Bool.not_eq_true, and_assoc]

/-- The end of a scan, with the reasons for the rejections before it (R38). -/
def ScanEnd.addReasons (e : ScanEnd) (u r : Bool) : ScanEnd := { e with unsup := u || e.unsup, parrej := r || e.parrej }

@[simp] theorem ScanEnd.addReasons_pos (e : ScanEnd) (u r : Bool) : (e.addReasons u r).pos = e.pos := rfl
@[simp] theorem ScanEnd.addReasons_fsm (e : ScanEnd) (u r : Bool) : (e.addReasons u r).fsm = e.fsm := rfl
@[simp] theorem ScanEnd.addReasons_frame (e : ScanEnd) (u r : Bool) : (e.addReasons u r).frame = e.frame := rfl
@[simp] theorem ScanEnd.addReasons_unsup (e : ScanEnd) (u r : Bool) : (e.addReasons u r).unsup = (u || e.unsup) := rfl
@[simp] theorem ScanEnd.addReasons_parrej (e : ScanEnd) (u r : Bool) : (e.addReasons u r).parrej = (r || e.parrej) := rfl

@[simp] theorem ScanEnd.addReasons_false (e : ScanEnd) : e.addReasons false false = e := rfl

theorem ScanEnd.addReasons_addReasons (e : ScanEnd) (u r u' r' : Bool) :
    (e.addReasons u' r').addReasons u r = e.addReasons (u || u') (r || r') := by
  simp only [addReasons, Bool.or_assoc]

section Turn

variable {v : View} {p : Nat}

/-- Too few bits for a preamble (R184). -/
theorem scanFrom_of_short (h8 : v.stream.length - p < 8) : scanFrom v p = ⟨p, .searching, false, false, none⟩ := by
  simp [scanFrom, scanLoop, h8]

/-- A preamble, and too few bits after it (R184). -/
theorem scanFrom_of_cut (h8 : 8 ≤ v.stream.length - p) (hpre : takeBits v.stream p 8 = preamble)
    (h300 : v.stream.length - p < 300) : scanFrom v p = ⟨p, .tentativeLock, false, false, none⟩ := by
  simp [scanFrom, scanLoop, Nat.not_lt.mpr h8, hpre, h300, subframeBits]

/-- A candidate that is accepted (R181). -/
theorem scanFrom_of_acceptable (h : acceptable v p) :
    scanFrom v p = ⟨p + 300, .locked, false, false, some (decodeSubframe v p)⟩ := by
  obtain ⟨hlen, hpre, hunsup, hparity⟩ := h
  have h8 : ¬ v.stream.length - p < 8 := by omega
  have h300 : ¬ v.stream.length - p < 300 := by omega
  simp [scanFrom, scanLoop, h8, hpre, h300, subframeBits, hunsup, hparity]

/-- After a turn that does not end the scan there are as many turns left as a scan from p + 1 takes (R185 item 1). -/
theorem scanLoop_remaining (h8 : 8 ≤ v.stream.length - p) (u r : Bool) :
    scanLoop v (v.stream.length - p) (p + 1) u r = (scanFrom v (p + 1)).addReasons u r := by
  have hturns : v.stream.length - p = v.stream.length - (p + 1) + 1 := by omega
  rw [hturns, scanLoop_reasons]
  rfl

/-- No preamble: the search goes on at the next position (R181). -/
theorem scanFrom_of_no_preamble (h8 : 8 ≤ v.stream.length - p) (hpre : takeBits v.stream p 8 ≠ preamble) :
    scanFrom v p = scanFrom v (p + 1) := by
  rw [scanFrom, scanLoop, if_neg (Nat.not_lt.mpr h8), if_pos hpre, scanLoop_remaining h8, ScanEnd.addReasons_false]

/-- A rejected candidate: its reasons are noted and the search goes on at the next position (R181, R183). -/
theorem scanFrom_of_rejected (h : StandsAt v p) (hrej : RejectedAt v p) :
    scanFrom v p = (scanFrom v (p + 1)).addReasons (rejectedUnsup (decodeSubframe v p))
      (rejectedParity v (decodeSubframe v p)) := by
  obtain ⟨hlen, hpre⟩ := h
  have h300 : ¬ v.stream.length - p < subframeBits := by rw [subframeBits]; omega
  rw [scanFrom, scanLoop, if_neg (by omega), if_neg (not_not.mpr hpre), if_neg h300, if_pos (Bool.or_eq_true_iff.mpr hrej),
    Bool.false_or, Bool.false_or, scanLoop_remaining (by omega)]

end Turn

/-- Induction along a scan: a fact about every position that the three endings have, and that the two branches which go on
carry back from the next position (R181, R185 item 1). -/
theorem scan_induction (v : View) {motive : Nat → Prop}
    (short : ∀ p, v.stream.length - p < 8 → motive p)
    (cut : ∀ p, 8 ≤ v.stream.length - p → takeBits v.stream p 8 = preamble → v.stream.length - p < 300 → motive p)
    (accepted : ∀ p, acceptable v p → motive p)
    (noPreamble : ∀ p, 8 ≤ v.stream.length - p → takeBits v.stream p 8 ≠ preamble → motive (p + 1) → motive p)
    (rejected : ∀ p, StandsAt v p → RejectedAt v p → motive (p + 1) → motive p) (p : Nat) : motive p := by
  induction hn : v.stream.length - p generalizing p with
  | zero => exact short p (by omega)
  | succ n ih =>
    have next : motive (p + 1) := ih (p + 1) (by omega)
    by_cases h8 : v.stream.length - p < 8
    · exact short p h8
    by_cases hpre : takeBits v.stream p 8 = preamble
    · by_cases h300 : v.stream.length - p < 300
      · exact cut p (Nat.not_lt.mp h8) hpre h300
      have hstands : StandsAt v p := ⟨by omega, hpre⟩
      by_cases hrej : RejectedAt v p
      · exact rejected p hstands hrej next
      · exact accepted p ((acceptable_iff v p).mpr ⟨hstands, hrej⟩)
    · exact noPreamble p (Nat.not_lt.mp h8) hpre next

/-! ### Where a scan ends, and what it passes over (R181 to R184) -/

/-- The scan goes on at j: the bits of a preamble are there, and where the preamble stands, a candidate that is rejected. -/
def PassedOver (v : View) (j : Nat) : Prop :=
  8 ≤ v.stream.length - j ∧ (takeBits v.stream j 8 = preamble → StandsAt v j ∧ RejectedAt v j)

/-- A scan from p passes over every position before q, rejecting candidates for the reasons u and r. -/
structure PassesTo (v : View) (p q : Nat) (u r : Bool) : Prop where
  le : p ≤ q
  passed : ∀ j, p ≤ j → j < q → PassedOver v j
  unsup_iff : u = true ↔ ∃ j, p ≤ j ∧ j < q ∧ StandsAt v j ∧ rejectedUnsup (decodeSubframe v j) = true
  parrej_iff : r = true ↔ ∃ j, p ≤ j ∧ j < q ∧ StandsAt v j ∧ rejectedParity v (decodeSubframe v j) = true

/-- How a scan ends at q (R184): with a frame, searching, or at a preamble it cannot decide. -/
inductive EndsAt (v : View) (q : Nat) (u r : Bool) : ScanEnd → Prop
  | accepted (h : acceptable v q) : EndsAt v q u r ⟨q + 300, .locked, u, r, some (decodeSubframe v q)⟩
  | short (h8 : v.stream.length - q < 8) : EndsAt v q u r ⟨q, .searching, u, r, none⟩
  | cut (h8 : 8 ≤ v.stream.length - q) (hpre : takeBits v.stream q 8 = preamble) (h300 : v.stream.length - q < 300) :
      EndsAt v q u r ⟨q, .tentativeLock, u, r, none⟩

theorem EndsAt.addReasons {v : View} {q : Nat} {u r : Bool} {e : ScanEnd} (h : EndsAt v q u r e) (u' r' : Bool) :
    EndsAt v q (u' || u) (r' || r) (e.addReasons u' r') := by
  cases h with
  | accepted h => exact .accepted h
  | short h8 => exact .short h8
  | cut h8 hpre h300 => exact .cut h8 hpre h300

/-- There is a position from p on with a property exactly when p has it or there is one from p + 1 on. -/
theorem exists_from_iff {P : Nat → Prop} {p q : Nat} (h : p < q) :
    (∃ j, p ≤ j ∧ j < q ∧ P j) ↔ P p ∨ ∃ j, p + 1 ≤ j ∧ j < q ∧ P j := by
  constructor
  · rintro ⟨j, hpj, hjq, hj⟩
    obtain rfl | hlt := Nat.eq_or_lt_of_le hpj
    · exact .inl hj
    · exact .inr ⟨j, hlt, hjq, hj⟩
  · rintro (hp | ⟨j, hpj, hjq, hj⟩)
    · exact ⟨p, le_refl p, h, hp⟩
    · exact ⟨j, Nat.le_of_succ_le hpj, hjq, hj⟩

theorem PassesTo.refl (v : View) (p : Nat) : PassesTo v p p false false where
  le := le_refl p
  passed _ hpj hjp := absurd hjp (Nat.not_lt.mpr hpj)
  unsup_iff := ⟨nofun, fun ⟨_, hpj, hjp, _⟩ => absurd hjp (Nat.not_lt.mpr hpj)⟩
  parrej_iff := ⟨nofun, fun ⟨_, hpj, hjp, _⟩ => absurd hjp (Nat.not_lt.mpr hpj)⟩

/-- One position more at the front, with its own reasons. -/
theorem PassesTo.cons {v : View} {p q : Nat} {u r u' r' : Bool} (h : PassesTo v (p + 1) q u r) (hp : PassedOver v p)
    (hu : u' = true ↔ StandsAt v p ∧ rejectedUnsup (decodeSubframe v p) = true)
    (hr : r' = true ↔ StandsAt v p ∧ rejectedParity v (decodeSubframe v p) = true) :
    PassesTo v p q (u' || u) (r' || r) where
  le := Nat.le_of_succ_le h.le
  passed j hpj hjq := by
    obtain rfl | hlt := Nat.eq_or_lt_of_le hpj
    · exact hp
    · exact h.passed j hlt hjq
  unsup_iff := by rw [exists_from_iff h.le, ← hu, ← h.unsup_iff, Bool.or_eq_true]
  parrej_iff := by rw [exists_from_iff h.le, ← hr, ← h.parrej_iff, Bool.or_eq_true]

/-- Every scan passes over the positions up to one at which it ends. -/
theorem scanFrom_endsAt (v : View) (p : Nat) :
    ∃ (q : Nat) (u r : Bool), PassesTo v p q u r ∧ EndsAt v q u r (scanFrom v p) := by
  induction p using scan_induction v with
  | short p h8 => exact ⟨p, false, false, .refl v p, scanFrom_of_short h8 ▸ .short h8⟩
  | cut p h8 hpre h300 => exact ⟨p, false, false, .refl v p, scanFrom_of_cut h8 hpre h300 ▸ .cut h8 hpre h300⟩
  | accepted p h => exact ⟨p, false, false, .refl v p, scanFrom_of_acceptable h ▸ .accepted h⟩
  | noPreamble p h8 hpre ih =>
    obtain ⟨q, u, r, hpass, hend⟩ := ih
    have hnone : ¬ StandsAt v p := fun h => hpre h.2
    refine ⟨q, _, _, hpass.cons (u' := false) (r' := false) ⟨h8, fun h => absurd h hpre⟩ ?_ ?_, ?_⟩
    · simp [hnone]
    · simp [hnone]
    · rw [scanFrom_of_no_preamble h8 hpre]
      exact hend
  | rejected p h hrej ih =>
    obtain ⟨q, u, r, hpass, hend⟩ := ih
    have h8 : 8 ≤ v.stream.length - p := by have := h.1; omega
    refine ⟨q, _, _, hpass.cons ⟨h8, fun _ => ⟨h, hrej⟩⟩ (and_iff_right h).symm (and_iff_right h).symm, ?_⟩
    rw [scanFrom_of_rejected h hrej]
    exact hend.addReasons _ _

/-! ### SYNC.SCAN (R181 to R184) -/

/-- A candidate is rejected for its identifier exactly when that is none of 1, 2 and 3 (R182, R205). -/
theorem rejectedUnsup_iff (c : Candidate) : rejectedUnsup c = true ↔ ¬ (c.sfid = 1 ∨ c.sfid = 2 ∨ c.sfid = 3) := by
  have hids : ∀ sfid : BitVec 3, (!supported sfid) = true ↔ ¬ (sfid = 1 ∨ sfid = 2 ∨ sfid = 3) := by decide
  exact hids c.sfid

/-- It is rejected for parity exactly when parity is on and at least THRESH of its words fail (R182). -/
theorem rejectedParity_iff (v : View) (c : Candidate) :
    rejectedParity v c = true ↔ v.parityEn = true ∧ v.thresh.toNat ≤ c.fails := by
  rw [rejectedParity, Bool.and_eq_true, decide_eq_true_iff]

/-- What a scan of a readable cursor reads: the two bits before the stream are PREV2 (R66, R185 item 5). -/
theorem State.view_of_readable {s : State} (hm : s.cmode = .decode ∨ s.cmode = .carry) :
    s.view = ⟨s.parityEn, s.thresh, s.prev2, s.stream⟩ := by
  rw [State.view, State.carryBits_of_readable hm]

/-- SYNC.SCAN on a readable cursor of a built core, by how the scan ended (R181). -/
theorem exec_syncScan_of_scanFrom {s : State} {e : ScanEnd} (hb : s.built = true) (hm : s.cmode = .decode ∨ s.cmode = .carry)
    (he : scanFrom ⟨s.parityEn, s.thresh, s.prev2, s.stream⟩ s.pos = e) :
    exec .syncScan s = .next ((s.finishScan e).answer (scanStatus e) (resNat e.pos)) := by
  have hexec : exec .syncScan s = .next (s.scan.answer (scanStatus (scanFrom s.view s.pos)) (resNat s.scan.consumed)) :=
    exec_of_legal rfl (readable_iff s.cmode) hb hm
  rw [hexec, State.scan, State.finishScan_consumed, State.view_of_readable hm, he]

/-- Settles O51: where the scan ends by `scanFrom_endsAt`, with the rejections of R182 written out. -/
theorem syncScanFindsTheFirstAcceptedSubframe : Obligations.SyncScanFindsTheFirstAcceptedSubframe := by
  intro s a
  refine ⟨decode_encode_cmd .syncScan rfl a, failsWith_wrongMode rfl (readable_iff s.cmode), fun hb hm => ?_⟩
  obtain ⟨q, u, r, hpass, hend⟩ := scanFrom_endsAt ⟨s.parityEn, s.thresh, s.prev2, s.stream⟩ s.pos
  simp only [← rejectedUnsup_iff, ← rejectedParity_iff ⟨s.parityEn, s.thresh, s.prev2, s.stream⟩]
  refine ⟨q, u, r, hpass.le, hpass.passed, hpass.unsup_iff, hpass.parrej_iff, ?_⟩
  generalize he : scanFrom _ _ = e at hend
  cases hend with
  | accepted h =>
    obtain ⟨hstands, hnot⟩ := (acceptable_iff _ q).mp h
    obtain ⟨hunsup, hparity⟩ := not_or.mp hnot
    exact .inl ⟨hstands, hunsup, hparity, exec_syncScan_of_scanFrom hb hm he⟩
  | short h8 => exact .inr (.inl ⟨h8, exec_syncScan_of_scanFrom hb hm he⟩)
  | cut h8 hpre h300 => exact .inr (.inr ⟨h8, hpre, h300, exec_syncScan_of_scanFrom hb hm he⟩)

/-- A scan moves forward and stays within the stream (R185 item 2). -/
theorem scanFrom_bounds (v : View) {p : Nat} (hp : p ≤ v.stream.length) :
    p ≤ (scanFrom v p).pos ∧ (scanFrom v p).pos ≤ v.stream.length :=
  scanLoop_bounds v (v.stream.length - p + 1) p false false hp

/-- Settles O52: the bounds of every scan, and for each of its three endings what stands there. -/
theorem scanStaysWithinTheStream : Obligations.ScanStaysWithinTheStream := by
  intro s hb hm hpos
  have hbounds := scanFrom_bounds ⟨s.parityEn, s.thresh, s.prev2, s.stream⟩ hpos
  obtain ⟨q, u, r, hpass, hend⟩ := scanFrom_endsAt ⟨s.parityEn, s.thresh, s.prev2, s.stream⟩ s.pos
  generalize he : scanFrom _ _ = e at hbounds hend
  refine ⟨_, exec_syncScan_of_scanFrom hb hm he, ?_⟩
  simp only [State.answer_consumed, State.answer_pos, State.answer_frameValid, State.answer_fsm, State.finishScan_consumed,
    State.finishScan_pos, State.finishScan_frameValid, State.finishScan_fsm]
  refine ⟨hbounds.1, hbounds.2, trivial, ?_⟩
  cases hend with
  | accepted h =>
    obtain ⟨-, hpre, -⟩ := h
    exact ⟨fun _ => ⟨Nat.add_le_add_right hpass.le 300, by rwa [Nat.add_sub_cancel]⟩, nofun⟩
  | short h8 => exact ⟨nofun, fun _ => ⟨h8.trans (by decide), fun _ => h8⟩⟩
  | cut h8 hpre h300 => exact ⟨nofun, fun _ => ⟨h300, nofun⟩⟩

/-! ### What a scan depends on (R185 items 5 and 6) -/

/-- A `take` within the n bits from p is a `take` of those n bits (R15). -/
theorem takeBits_window (bs : List Bool) (p n i m : Nat) (h : i + m ≤ n) :
    takeBits bs (p + i) m = takeBits ((bs.drop p).take n) i m := by
  apply takeBits_congr
  rw [List.drop_take, List.drop_drop, List.take_take, Nat.min_eq_left (by omega)]

/-- v at p and v' at p' are the same subframe: the same 300 bits after the same two bits, under the same setting of
parity (R211). -/
structure SameSubframe (v v' : View) (p p' : Nat) : Prop where
  parityEn_eq : v.parityEn = v'.parityEn
  bits_eq : (v.stream.drop p).take 300 = (v'.stream.drop p').take 300
  carried_eq : prev2At v.carry v.stream p = prev2At v'.carry v'.stream p'

namespace SameSubframe

variable {v v' : View} {p p' : Nat} (h : SameSubframe v v' p p')
include h

theorem takeBits_eq {i m : Nat} (him : i + m ≤ 300) : takeBits v.stream (p + i) m = takeBits v'.stream (p' + i) m := by
  rw [takeBits_window _ p 300 i m him, h.bits_eq, ← takeBits_window _ p' 300 i m him]

/-- The words of the two are the same (R201). -/
theorem wordAt_eq {w : Nat} (hw : w ≤ 10) : wordAt v p w = wordAt v' p' w := by
  have hin : wordBits * (w - 1) + 30 ≤ 300 := by simp only [wordBits]; omega
  exact h.takeBits_eq hin

/-- So are the bits before them: before word 1 by hypothesis, before a later word they are the last two of the word
before it (R201). -/
theorem carriedAt_eq {w : Nat} (hw : w ≤ 10) : carriedAt v p w = carriedAt v' p' w := by
  obtain hfirst | ⟨k, hk⟩ : wordBits * (w - 1) = 0 ∨ ∃ k, wordBits * (w - 1) = k + 2 := by
    obtain h1 | h2 := Nat.lt_or_ge 1 w
    · exact .inr ⟨wordBits * (w - 1) - 2, by simp only [wordBits]; omega⟩
    · exact .inl (by simp only [wordBits]; omega)
  · rw [carriedAt, carriedAt, wordStart, wordStart, hfirst]
    exact h.carried_eq
  · have hin : k + 2 ≤ 300 := by simp only [wordBits] at hk; omega
    rw [carriedAt, carriedAt, wordStart, wordStart, hk, ← Nat.add_assoc, ← Nat.add_assoc, prev2At_add_two, prev2At_add_two,
      h.takeBits_eq hin]

theorem dataAt_eq {w : Nat} (hw : w ≤ 10) : dataAt v p w = dataAt v' p' w := by
  rw [dataAt, dataAt, h.wordAt_eq hw, h.carriedAt_eq hw]

theorem flagsAt_eq : flagsAt v p = flagsAt v' p' := by
  refine List.map_congr_left fun j hj => ?_
  have hw : j + 1 ≤ 10 := List.mem_range.mp hj
  rw [okAt, okAt, h.wordAt_eq hw, h.carriedAt_eq hw, h.parityEn_eq]

end SameSubframe

/-- The field maps name words of the subframe only (R206). -/
theorem fieldMap_words : ∀ sfid : BitVec 3, ∀ m ∈ fieldMap sfid, ∀ e ∈ m, ∀ piece ∈ e.pieces, piece.word ≤ 10 := by
  decide

/-- A field is cut from the words its pieces name (R206). -/
theorem fieldValue_congr {d d' : SourceWords} {e : FieldEntry} (h : ∀ piece ∈ e.pieces, d piece.word = d' piece.word) :
    fieldValue d e = fieldValue d' e := by
  have hcut : cutPieces d e.pieces = cutPieces d' e.pieces :=
    List.foldl_ext _ _ _ fun acc piece hpiece => by rw [cutPiece, cutPiece, h piece hpiece]
  rw [fieldValue, fieldValue, hcut]

/-- So is a register of a decode, from the words the map names (R206). -/
theorem decodeField_congr {m : List FieldEntry} {d d' : SourceWords}
    (h : ∀ e ∈ m, ∀ piece ∈ e.pieces, d piece.word = d' piece.word) (k : Fin 11) : decodeField m d k = decodeField m d' k := by
  unfold decodeField
  split
  next e he => exact fieldValue_congr (h e (List.mem_of_find?_eq_some he))
  next => rfl

theorem getElem_decodeFields (m : List FieldEntry) (d : SourceWords) (k : Fin 11) :
    (decodeFields m d)[k] = decodeField m d k := by
  fin_cases k <;> rfl

theorem decodeFields_congr {m : List FieldEntry} {d d' : SourceWords} (h : ∀ k, decodeField m d k = decodeField m d' k) :
    decodeFields m d = decodeFields m d' :=
  Vector.ext fun i hi => by
    have hk := h ⟨i, hi⟩
    rwa [← getElem_decodeFields, ← getElem_decodeFields] at hk

/-- The fields are cut from words 1 to 10 (R211). -/
theorem fieldsOf_congr {d d' : SourceWords} (h : ∀ w ≤ 10, d w = d' w) (sfid : BitVec 3) :
    fieldsOf sfid d = fieldsOf sfid d' := by
  unfold fieldsOf
  split
  next m hm =>
    have hwords := fieldMap_words sfid m hm
    exact decodeFields_congr (decodeField_congr fun e he piece hpiece => h _ (hwords e he piece hpiece))
  next => rfl

namespace SameSubframe

variable {v v' : View} {p p' : Nat} (h : SameSubframe v v' p p')
include h

/-- The same subframe gives the same decode (R211). -/
theorem decodeSubframe_eq : decodeSubframe v p = decodeSubframe v' p' := by
  have hdata : ∀ w ≤ 10, dataAt v p w = dataAt v' p' w := fun _ hw => h.dataAt_eq hw
  rw [decodeSubframe, decodeSubframe, h.flagsAt_eq, hdata 1 (by decide), hdata 2 (by decide), fieldsOf_congr hdata]

/-- A candidate at the one place is a candidate at the other. -/
theorem standsAt_iff : StandsAt v p ↔ StandsAt v' p' := by
  have hlen := congrArg List.length h.bits_eq
  simp only [List.length_take, List.length_drop] at hlen
  have h300 : p + 300 ≤ v.stream.length ↔ p' + 300 ≤ v'.stream.length := by omega
  have hpre : takeBits v.stream p 8 = takeBits v'.stream p' 8 := h.takeBits_eq (i := 0) (by decide)
  rw [StandsAt, StandsAt, h300, hpre]

variable (hthresh : v.thresh = v'.thresh)
include hthresh

/-- Under the same THRESH as well, it is rejected for the same reasons (R182). -/
theorem rejectedParity_eq :
    rejectedParity v (decodeSubframe v p) = rejectedParity v' (decodeSubframe v' p') := by
  rw [rejectedParity, rejectedParity, h.decodeSubframe_eq, h.parityEn_eq, hthresh]

theorem rejectedAt_iff : RejectedAt v p ↔ RejectedAt v' p' := by
  rw [RejectedAt, RejectedAt, h.rejectedParity_eq hthresh, h.decodeSubframe_eq]

/-- A scan accepts at the one place what it accepts at the other. -/
theorem scanFrom_of_acceptable (hacc : acceptable v' p') :
    scanFrom v p = ⟨p + 300, .locked, false, false, some (decodeSubframe v' p')⟩ := by
  have hacc' : acceptable v p := by
    rwa [acceptable_iff, h.standsAt_iff, h.rejectedAt_iff hthresh, ← acceptable_iff]
  rw [Machine.scanFrom_of_acceptable hacc', h.decodeSubframe_eq]

/-- What it rejects at the one place it rejects at the other, for the same reasons. -/
theorem scanFrom_of_rejected (hstands : StandsAt v' p') (hrej : RejectedAt v' p') :
    scanFrom v p = (scanFrom v (p + 1)).addReasons (rejectedUnsup (decodeSubframe v' p'))
      (rejectedParity v' (decodeSubframe v' p')) := by
  rw [Machine.scanFrom_of_rejected (h.standsAt_iff.mpr hstands) ((h.rejectedAt_iff hthresh).mpr hrej),
    h.rejectedParity_eq hthresh, h.decodeSubframe_eq]

end SameSubframe

/-! ### A scan continued over a longer stream (R185 item 6) -/

/-- The two bits before a position within the stream do not depend on what comes after the stream (R66). -/
theorem prev2At_append (carry : BitVec 2) (bs rest : List Bool) {p : Nat} (hp : p ≤ bs.length) :
    prev2At carry (bs ++ rest) p = prev2At carry bs p := by
  rw [prev2At, extStream, ← List.append_assoc]
  exact takeBits_append_left _ _ _ _ (by simp; omega)

/-- The view of a stream that has grown at its end. -/
def View.extend (v : View) (more : List Bool) : View := { v with stream := v.stream ++ more }

/-- A subframe whose bits were there stays the same. -/
theorem sameSubframe_extend {v : View} (more : List Bool) {p : Nat} (h300 : p + 300 ≤ v.stream.length) :
    SameSubframe (v.extend more) v p p where
  parityEn_eq := rfl
  bits_eq := by
    rw [View.extend, List.drop_append_of_le_length (by omega), List.take_append_of_le_length (by simp; omega)]
  carried_eq := prev2At_append _ _ _ (by omega)

/-- A place whose bits were there and hold no preamble is searched past as before. -/
theorem scanFrom_extend_of_no_preamble {v : View} (more : List Bool) {p : Nat} (h8 : 8 ≤ v.stream.length - p)
    (hpre : takeBits v.stream p 8 ≠ preamble) : scanFrom (v.extend more) p = scanFrom (v.extend more) (p + 1) := by
  have hlen : (v.extend more).stream.length = v.stream.length + more.length := List.length_append
  have hbyte : takeBits (v.extend more).stream p 8 = takeBits v.stream p 8 := takeBits_append_left _ _ _ _ (by omega)
  exact scanFrom_of_no_preamble (by omega) (by rwa [hbyte])

/-- Until it runs out a scan does over the longer stream what it did over the shorter one; from there on it is the scan that
continues it. -/
theorem scanFrom_extend (v : View) (more : List Bool) (p : Nat) (hnone : (scanFrom v p).frame = none) :
    scanFrom (v.extend more) p =
      (scanFrom (v.extend more) (scanFrom v p).pos).addReasons (scanFrom v p).unsup (scanFrom v p).parrej := by
  induction p using scan_induction v with
  | short p h8 => rw [scanFrom_of_short h8, ScanEnd.addReasons_false]
  | cut p h8 hpre h300 => rw [scanFrom_of_cut h8 hpre h300, ScanEnd.addReasons_false]
  | accepted p h =>
    rw [scanFrom_of_acceptable h] at hnone
    exact absurd hnone nofun
  | noPreamble p h8 hpre ih =>
    rw [scanFrom_of_no_preamble h8 hpre] at hnone ⊢
    rw [scanFrom_extend_of_no_preamble more h8 hpre, ih hnone]
  | rejected p h hrej ih =>
    rw [scanFrom_of_rejected h hrej] at hnone ⊢
    rw [ScanEnd.addReasons_frame] at hnone
    rw [(sameSubframe_extend more h.1).scanFrom_of_rejected rfl h hrej, ih hnone, ScanEnd.addReasons_addReasons,
      ScanEnd.addReasons_pos, ScanEnd.addReasons_unsup, ScanEnd.addReasons_parrej]

/-- Settles O53: `scanFrom_extend`, field by field. -/
theorem scansContinueWhereTheyStopped : Obligations.ScansContinueWhereTheyStopped := by
  intro parityEn thresh carry bs more p hnone first rest whole
  have hwhole : whole = rest.addReasons first.unsup first.parrej :=
    scanFrom_extend ⟨parityEn, thresh, carry, bs⟩ more p hnone
  rw [hwhole]
  simp

/-! ### A scan of a stream whose first bits were dropped (R185 item 5, R132) -/

/-- The view after the first k bits were dropped, the two last of them kept (R132). -/
def View.drop (v : View) (k : Nat) : View := { v with carry := prev2At v.carry v.stream k, stream := v.stream.drop k }

/-- The end of a scan in a stream that has k bits more at its front. -/
def ScanEnd.shift (e : ScanEnd) (k : Nat) : ScanEnd := { e with pos := k + e.pos }

theorem ScanEnd.shift_addReasons (e : ScanEnd) (k : Nat) (u r : Bool) :
    (e.addReasons u r).shift k = (e.shift k).addReasons u r := rfl

section Drop

variable {v : View} {k : Nat}

/-- There are as many bits from p on after the drop as there were from k + p on. -/
theorem View.length_drop_sub (p : Nat) : (v.drop k).stream.length - p = v.stream.length - (k + p) := by
  rw [View.drop, List.length_drop, Nat.sub_sub]

/-- The drop renumbers the subframes and keeps the two bits before each (R132). -/
theorem sameSubframe_drop (hk : k ≤ v.stream.length) (p : Nat) : SameSubframe v (v.drop k) (k + p) p where
  parityEn_eq := rfl
  bits_eq := by rw [View.drop, List.drop_drop]
  carried_eq := (prev2At_drop v.carry v.stream k p hk).symm

/-- A scan from k + p is the scan from p after the drop of k bits, k positions further on. -/
theorem scanFrom_drop (hk : k ≤ v.stream.length) (p : Nat) : scanFrom v (k + p) = (scanFrom (v.drop k) p).shift k := by
  have hpreamble : ∀ q, takeBits (v.drop k).stream q 8 = takeBits v.stream (k + q) 8 := fun q => takeBits_drop v.stream k q 8
  induction p using scan_induction (v.drop k) with
  | short p h8 =>
    rw [scanFrom_of_short h8]
    rw [View.length_drop_sub] at h8
    rw [scanFrom_of_short h8, ScanEnd.shift]
  | cut p h8 hpre h300 =>
    rw [scanFrom_of_cut h8 hpre h300]
    rw [View.length_drop_sub] at h8 h300
    rw [scanFrom_of_cut h8 (hpreamble p ▸ hpre) h300, ScanEnd.shift]
  | accepted p h =>
    rw [scanFrom_of_acceptable h, (sameSubframe_drop hk p).scanFrom_of_acceptable rfl h, ScanEnd.shift, Nat.add_assoc]
  | noPreamble p h8 hpre ih =>
    rw [scanFrom_of_no_preamble h8 hpre, ← ih]
    rw [View.length_drop_sub] at h8
    rw [hpreamble] at hpre
    exact scanFrom_of_no_preamble h8 hpre
  | rejected p h hrej ih =>
    rw [scanFrom_of_rejected h hrej, (sameSubframe_drop hk p).scanFrom_of_rejected rfl h hrej, ScanEnd.shift_addReasons, ← ih,
      Nat.add_assoc]

end Drop

/-- Settles O54: `scanFrom_drop` for the view the statement writes out. -/
theorem scansDependOnTheStreamAheadOnly : Obligations.ScansDependOnTheStreamAheadOnly :=
  fun parityEn thresh carry bs _ p hk => scanFrom_drop (v := ⟨parityEn, thresh, carry, bs⟩) hk p

end Sys2Proof.Machine

/-! ## Proofs for 43_subframe_codec, the field maps (R206 to R210)

A field is the bits of its pieces put together (`rawField`), then extended. Placed pieces read back because no two pieces of a
map have a bit in common (`MapWellFormed`); the rest of a map is a matter of its table. -/

namespace Sys2Proof.Machine

/-! ### Cutting a field (R206) -/

/-- The bits of the source data that a piece names. -/
def Piece.bits (p : Piece) (d : SourceWords) : BitVec (pieceWidth p) := (d p.word).extractLsb' p.lo (pieceWidth p)

theorem Piece.getLsbD_bits (p : Piece) (d : SourceWords) {i : Nat} (hi : i < pieceWidth p) :
    (p.bits d).getLsbD i = (d p.word).getLsbD (p.lo + i) := by
  rw [bits, BitVec.getLsbD_extractLsb', decide_eq_true hi, Bool.true_and]

/-- The raw value of a field (R206): the bits of its pieces, put together. -/
def rawField (d : SourceWords) : (ps : List Piece) → BitVec (piecesWidth ps)
  | [] => 0#0
  | [p] => p.bits d
  | p :: q :: rest => p.bits d ++ rawField d (q :: rest)

theorem rawField_cons (d : SourceWords) (p : Piece) (rest : List Piece) :
    rawField d (p :: rest) = p.bits d ++ rawField d rest := by
  cases rest with
  | nil => exact (BitVec.append_zero_width (p.bits d) 0#0).symm
  | cons q rest => rfl

theorem rawField_congr {d d' : SourceWords} {ps : List Piece} (h : ∀ p ∈ ps, p.bits d = p.bits d') :
    rawField d ps = rawField d' ps := by
  induction ps with
  | nil => rfl
  | cons p rest ih =>
    obtain ⟨hp, hrest⟩ := List.forall_mem_cons.mp h
    rw [rawField_cons, rawField_cons, hp, ih hrest]

theorem piecesWidth_cons (p : Piece) (rest : List Piece) : piecesWidth (p :: rest) = pieceWidth p + piecesWidth rest := rfl

/-- The fold of `cutPieces` from any value: that value, then the raw value after it. -/
theorem foldl_cutPiece (d : SourceWords) (ps : List Piece) (acc : Word) :
    ps.foldl (fun (acc : Word) p => (acc <<< pieceWidth p) ||| cutPiece d p) acc =
      (acc <<< piecesWidth ps) ||| (rawField d ps).setWidth 32 := by
  induction ps generalizing acc with
  | nil => simp [piecesWidth, rawField]
  | cons p rest ih =>
    have hraw : (rawField d (p :: rest)).setWidth 32 =
        (cutPiece d p <<< piecesWidth rest) ||| (rawField d rest).setWidth 32 := by
      rw [rawField_cons]
      exact setWidth_append_eq_shiftLeft_or (p.bits d) (rawField d rest)
    rw [List.foldl_cons, ih, hraw, piecesWidth_cons, BitVec.shiftLeft_or_distrib, BitVec.shiftLeft_add, BitVec.or_assoc]

theorem cutPieces_eq (d : SourceWords) (ps : List Piece) : cutPieces d ps = (rawField d ps).setWidth 32 := by
  simp [cutPieces, foldl_cutPiece]

/-- A raw value in a register: extended by its sign or by zeros (R206). -/
def FieldEntry.extend (e : FieldEntry) (raw : BitVec (piecesWidth e.pieces)) : Word :=
  if e.signed then raw.signExtend 32 else raw.setWidth 32

/-- A field that fits a register is its raw value, extended (R206). -/
theorem fieldValue_eq (d : SourceWords) {e : FieldEntry} (hwidth : piecesWidth e.pieces ≤ 32) :
    fieldValue d e = e.extend (rawField d e.pieces) := by
  rw [fieldValue, cutPieces_eq, BitVec.setWidth_setWidth_of_le _ hwidth, BitVec.setWidth_eq]
  rfl

/-- FLD register k when each entry of a map has a raw value: its entry's value extended, 0 where the map has no entry
(R206). -/
def registerOf (m : List FieldEntry) (raw : (e : FieldEntry) → BitVec (piecesWidth e.pieces)) (k : Fin 11) : Word :=
  match m.find? (fun e => e.reg == k) with
  | some e => e.extend (raw e)
  | none => 0

theorem registerOf_congr {m : List FieldEntry} {raw raw' : (e : FieldEntry) → BitVec (piecesWidth e.pieces)}
    (h : ∀ e ∈ m, raw e = raw' e) (k : Fin 11) : registerOf m raw k = registerOf m raw' k := by
  unfold registerOf
  split
  next e he => rw [h e (List.mem_of_find?_eq_some he)]
  next => rfl

/-- A register of a decode by a map whose fields fit the registers (R206). -/
theorem decodeField_eq_registerOf {m : List FieldEntry} (hwidth : ∀ e ∈ m, piecesWidth e.pieces ≤ 32) (d : SourceWords)
    (k : Fin 11) : decodeField m d k = registerOf m (fun e => rawField d e.pieces) k := by
  unfold decodeField registerOf
  cases hfind : m.find? fun e => e.reg == k with
  | none => rfl
  | some e => exact fieldValue_eq d (hwidth e (List.mem_of_find?_eq_some hfind))

/-- A decode is known by its registers. -/
theorem decodeFields_eq_of_registers {m : List FieldEntry} {d : SourceWords} {f : Vector Word 11}
    (h : ∀ k : Fin 11, decodeField m d k = f[k]) : decodeFields m d = f :=
  Vector.ext fun i hi => (getElem_decodeFields m d ⟨i, hi⟩).trans (h ⟨i, hi⟩)

/-! ### Placing a field (R206) -/

/-- A piece names bits of a 24-bit word. -/
abbrev Piece.Fits (p : Piece) : Prop := p.lo ≤ p.hi ∧ p.hi < 24

/-- Two pieces have no bit in common. -/
abbrev Piece.Apart (p q : Piece) : Prop := p.word ≠ q.word ∨ p.hi < q.lo ∨ q.hi < p.lo

theorem Piece.Apart.symm {p q : Piece} (h : p.Apart q) : q.Apart p := by
  obtain h | h | h := h
  · exact .inl h.symm
  · exact .inr (.inr h)
  · exact .inr (.inl h)

/-- What a piece with the value x contributes to the source data. -/
def Piece.place (p : Piece) (x : BitVec (pieceWidth p)) : SourceWords := fun w =>
  if p.word = w then x.setWidth 24 <<< p.lo else 0

/-- A piece reads back what it placed. -/
theorem Piece.bits_place_self {p : Piece} (hp : p.Fits) (x : BitVec (pieceWidth p)) : p.bits (p.place x) = x := by
  refine BitVec.eq_of_getLsbD_eq fun i hi => ?_
  have hin : p.lo + i < 24 := by unfold pieceWidth at hi; omega
  rw [getLsbD_bits p _ hi, place, if_pos rfl]
  simp [hin]

/-- A piece reads 0 where another one, apart from it, placed its value. -/
theorem Piece.bits_place_apart {p q : Piece} (hp : p.Fits) (hq : q.Fits) (h : p.Apart q) (x : BitVec (pieceWidth p)) :
    q.bits (p.place x) = 0#_ := by
  refine BitVec.eq_of_getLsbD_eq fun i hi => ?_
  rw [getLsbD_bits q _ hi, BitVec.getLsbD_zero, place]
  split
  next hword =>
    unfold pieceWidth at hi
    obtain hbelow | habove : q.lo + i < p.lo ∨ p.hi < q.lo + i := by omega
    · simp [hbelow]
    · have hx : x.getLsbD (q.lo + i - p.lo) = false := BitVec.getLsbD_of_ge _ _ (by unfold pieceWidth; omega)
      simp [hx]
  next => exact BitVec.getLsbD_zero

theorem bits_placePieces_cons (q p : Piece) (rest : List Piece) (v : Word) :
    q.bits (placePieces (p :: rest) v) =
      q.bits (p.place ((v >>> piecesWidth rest).setWidth (pieceWidth p))) ||| q.bits (placePieces rest v) :=
  BitVec.extractLsb'_or

theorem bits_placePieces_apart {q : Piece} {ps : List Piece} (hq : q.Fits) (hfits : ∀ p ∈ ps, p.Fits)
    (hapart : ∀ p ∈ ps, p.Apart q) (v : Word) : q.bits (placePieces ps v) = 0#_ := by
  induction ps with
  | nil => exact BitVec.extractLsb'_zero
  | cons p rest ih =>
    obtain ⟨hp, hfits⟩ := List.forall_mem_cons.mp hfits
    obtain ⟨hpq, hapart⟩ := List.forall_mem_cons.mp hapart
    rw [bits_placePieces_cons, Piece.bits_place_apart hp hq hpq, ih hfits hapart, BitVec.or_zero]

theorem setWidth_ushiftRight_eq_extractLsb' (v : Word) (start len : Nat) :
    (v >>> start).setWidth len = v.extractLsb' start len := by
  refine BitVec.eq_of_getLsbD_eq fun i hi => ?_
  simp [hi]

/-- Pieces that are apart read back the low bits of the value placed in them, the first piece the most significant (R206). -/
theorem rawField_placePieces {ps : List Piece} (hfits : ∀ p ∈ ps, p.Fits) (hapart : ps.Pairwise Piece.Apart) (v : Word) :
    rawField (placePieces ps v) ps = v.extractLsb' 0 (piecesWidth ps) := by
  induction ps with
  | nil => exact BitVec.eq_of_zero_length rfl
  | cons p rest ih =>
    obtain ⟨hp, hrest⟩ := List.forall_mem_cons.mp hfits
    obtain ⟨hpRest, hapartRest⟩ := List.pairwise_cons.mp hapart
    have hhead : p.bits (placePieces (p :: rest) v) = v.extractLsb' (piecesWidth rest) (pieceWidth p) := by
      rw [bits_placePieces_cons, Piece.bits_place_self hp, bits_placePieces_apart hp hrest fun q hq => (hpRest q hq).symm,
        BitVec.or_zero, setWidth_ushiftRight_eq_extractLsb']
    have htail : rawField (placePieces (p :: rest) v) rest = v.extractLsb' 0 (piecesWidth rest) := by
      rw [← ih hrest hapartRest]
      refine rawField_congr fun q hq => ?_
      rw [bits_placePieces_cons, Piece.bits_place_apart hp (hrest q hq) (hpRest q hq), BitVec.zero_or]
    rw [rawField_cons, hhead, htail]
    exact BitVec.extractLsb'_append_extractLsb'_eq_extractLsb' (Nat.zero_add _).symm

/-! ### Placing the fields of a map (R206, R213) -/

/-- What the maps of R208 to R210 have in common: each entry fits its register, each piece its word, and no two pieces have
a bit in common. -/
structure MapWellFormed (m : List FieldEntry) : Prop where
  width : ∀ e ∈ m, piecesWidth e.pieces ≤ 32
  fits : ∀ e ∈ m, ∀ p ∈ e.pieces, p.Fits
  apart : ∀ e ∈ m, e.pieces.Pairwise Piece.Apart
  apart_entries : m.Pairwise fun e f => ∀ p ∈ e.pieces, ∀ q ∈ f.pieces, p.Apart q

theorem fieldMap_wellFormed {sfid : BitVec 3} {m : List FieldEntry} (hm : fieldMap sfid = some m) : MapWellFormed m where
  width := by
    have h : ∀ sfid : BitVec 3, ∀ m ∈ fieldMap sfid, ∀ e ∈ m, piecesWidth e.pieces ≤ 32 := by decide
    exact h sfid m hm
  fits := by
    have h : ∀ sfid : BitVec 3, ∀ m ∈ fieldMap sfid, ∀ e ∈ m, ∀ p ∈ e.pieces, p.Fits := by decide
    exact h sfid m hm
  apart := by
    have h : ∀ sfid : BitVec 3, ∀ m ∈ fieldMap sfid, ∀ e ∈ m, e.pieces.Pairwise Piece.Apart := by decide
    exact h sfid m hm
  apart_entries := by
    have h : ∀ sfid : BitVec 3, ∀ m ∈ fieldMap sfid,
        m.Pairwise fun e f => ∀ p ∈ e.pieces, ∀ q ∈ f.pieces, p.Apart q := by decide
    exact h sfid m hm

theorem bits_placeFields_cons (q : Piece) (e : FieldEntry) (m : List FieldEntry) (fld : Vector Word 11) :
    q.bits (placeFields (e :: m) fld) = q.bits (placePieces e.pieces fld[e.reg]) ||| q.bits (placeFields m fld) :=
  BitVec.extractLsb'_or

/-- Bits that no piece of the map names are 0 in an encode (R213). -/
theorem bits_placeFields_apart {m : List FieldEntry} {q : Piece} (hq : q.Fits) (hfits : ∀ e ∈ m, ∀ p ∈ e.pieces, p.Fits)
    (hapart : ∀ e ∈ m, ∀ p ∈ e.pieces, p.Apart q) (fld : Vector Word 11) : q.bits (placeFields m fld) = 0#_ := by
  induction m with
  | nil => exact BitVec.extractLsb'_zero
  | cons e m ih =>
    obtain ⟨hfit, hfits⟩ := List.forall_mem_cons.mp hfits
    obtain ⟨he, hapart⟩ := List.forall_mem_cons.mp hapart
    rw [bits_placeFields_cons, bits_placePieces_apart hq hfit he, ih hfits hapart, BitVec.or_zero]

/-- At a piece of one entry the other entries place nothing. -/
theorem bits_placeFields_of_mem {m : List FieldEntry} (hfits : ∀ e ∈ m, ∀ p ∈ e.pieces, p.Fits)
    (hapart : m.Pairwise fun e f => ∀ p ∈ e.pieces, ∀ q ∈ f.pieces, p.Apart q) (fld : Vector Word 11) {e : FieldEntry}
    (he : e ∈ m) {q : Piece} (hq : q ∈ e.pieces) : q.bits (placeFields m fld) = q.bits (placePieces e.pieces fld[e.reg]) := by
  have hqfits : q.Fits := hfits e he q hq
  induction m with
  | nil => exact absurd he List.not_mem_nil
  | cons f m ih =>
    obtain ⟨hffits, hmfits⟩ := List.forall_mem_cons.mp hfits
    obtain ⟨hfm, hmapart⟩ := List.pairwise_cons.mp hapart
    rw [bits_placeFields_cons]
    obtain rfl | hem := List.mem_cons.mp he
    · rw [bits_placeFields_apart hqfits hmfits fun e' he' p hp => (hfm e' he' q hq p hp).symm, BitVec.or_zero]
    · rw [bits_placePieces_apart hqfits hffits fun p hp => hfm e hem p hp q hq, BitVec.zero_or, ih hmfits hmapart hem]

/-- The raw value that an entry takes from its register in an encode: the register's low bits (R206). -/
def rawRegister (fld : Vector Word 11) (e : FieldEntry) : BitVec (piecesWidth e.pieces) := fld[e.reg].setWidth _

/-- What an encode places decodes to the extension of the low bits of each register, whatever the bits are that no piece
names (R206). -/
theorem decodeField_of_placed {m : List FieldEntry} (hm : MapWellFormed m) {d : SourceWords} {fld : Vector Word 11}
    (hd : ∀ e ∈ m, ∀ p ∈ e.pieces, p.bits d = p.bits (placeFields m fld)) (k : Fin 11) :
    decodeField m d k = registerOf m (rawRegister fld) k := by
  rw [decodeField_eq_registerOf hm.width]
  refine registerOf_congr (fun e he => ?_) k
  rw [rawRegister, BitVec.setWidth_eq_extractLsb' (hm.width e he), ← rawField_placePieces (hm.fits e he) (hm.apart e he)]
  exact rawField_congr fun p hp => (hd e he p hp).trans (bits_placeFields_of_mem hm.fits hm.apart_entries fld he hp)

theorem decodeField_placeFields {m : List FieldEntry} (hm : MapWellFormed m) (fld : Vector Word 11) (k : Fin 11) :
    decodeField m (placeFields m fld) k = registerOf m (rawRegister fld) k :=
  decodeField_of_placed hm (fun _ _ _ _ => rfl) k

/-- An encode reads the registers that the map names (R206). -/
theorem placeFields_congr {m : List FieldEntry} {fld fld' : Vector Word 11} (h : ∀ e ∈ m, fld[e.reg] = fld'[e.reg])
    (w : Nat) : placeFields m fld w = placeFields m fld' w := by
  induction m with
  | nil => rfl
  | cons e m ih =>
    obtain ⟨he, hm⟩ := List.forall_mem_cons.mp h
    exact congrArg₂ (fun v acc => placePieces e.pieces v w ||| acc) he (ih hm)

/-! ### The maps of subframes 1, 2 and 3 (R208 to R210) -/

theorem fieldMap1_wellFormed : MapWellFormed fieldMap1 := fieldMap_wellFormed (sfid := 1) rfl
theorem fieldMap2_wellFormed : MapWellFormed fieldMap2 := fieldMap_wellFormed (sfid := 2) rfl
theorem fieldMap3_wellFormed : MapWellFormed fieldMap3 := fieldMap_wellFormed (sfid := 3) rfl

/-- Settles O44: the registers of a decode and of a round trip, one by one, and the reserved bits as pieces apart from the
map. -/
theorem fieldMapOfSubframeOne : Obligations.FieldMapOfSubframeOne := by
  have hreserved : ∀ (q : Piece), q.Fits → (∀ e ∈ fieldMap1, ∀ p ∈ e.pieces, p.Apart q) → ∀ fld,
      q.bits (placeFields fieldMap1 fld) = 0#_ :=
    fun q hq hapart => bits_placeFields_apart hq fieldMap1_wellFormed.fits hapart
  refine ⟨fun d => decodeFields_eq_of_registers fun k => ?_, rfl, rfl, fun fld => ⟨?_, ?_, ?_, ?_, ?_⟩,
    fun fld => decodeFields_eq_of_registers fun k => ?_⟩
  · rw [decodeField_eq_registerOf fieldMap1_wellFormed.width]
    match k with
    | 0 | 1 | 2 | 3 | 4 | 5 | 6 | 7 | 8 | 9 | 10 => rfl
  · exact hreserved ⟨4, 22, 0⟩ (by decide) (by decide) fld
  · exact BitVec.extractLsb'_eq_self.symm.trans (hreserved ⟨5, 23, 0⟩ (by decide) (by decide) fld)
  · exact BitVec.extractLsb'_eq_self.symm.trans (hreserved ⟨6, 23, 0⟩ (by decide) (by decide) fld)
  · exact hreserved ⟨7, 23, 8⟩ (by decide) (by decide) fld
  · exact hreserved ⟨10, 1, 0⟩ (by decide) (by decide) fld
  · rw [decodeField_placeFields fieldMap1_wellFormed]
    match k with
    | 0 | 1 | 2 | 3 | 4 | 5 | 6 | 7 | 8 | 9 | 10 => rfl


/-- Settles O45: the registers of a decode and of a round trip; M0, E and SQRTA fill theirs, with nothing to extend. -/
theorem fieldMapOfSubframeTwo : Obligations.FieldMapOfSubframeTwo := by
  refine ⟨fun d => ?_, rfl, rfl,
    bits_placeFields_apart (m := fieldMap2) (q := ⟨10, 1, 0⟩) (by decide) fieldMap2_wellFormed.fits (by decide), fun fld => ?_⟩
  · refine decodeFields_eq_of_registers fun k => ?_
    rw [decodeField_eq_registerOf fieldMap2_wellFormed.width]
    match k with
    | 3 => exact BitVec.signExtend_eq _
    | 5 | 7 => exact BitVec.setWidth_eq _
    | 0 | 1 | 2 | 4 | 6 | 8 | 9 | 10 => rfl
  · refine decodeFields_eq_of_registers fun k => ?_
    rw [decodeField_placeFields fieldMap2_wellFormed]
    match k with
    | 3 => exact BitVec.signExtend_eq _
    | 5 | 7 => exact BitVec.setWidth_eq _
    | 0 | 1 | 2 | 4 | 6 | 8 | 9 | 10 => rfl

/-- Settles O46: as for subframe 2, with OMEGA0, I0 and OMEGA the full ones; FLD9 and FLD10 have no entry, so an encode does
not read them. -/
theorem fieldMapOfSubframeThree : Obligations.FieldMapOfSubframeThree := by
  refine ⟨fun d => ?_, rfl, fun fld x y w => placeFields_congr (fun e he => ?_) w,
    bits_placeFields_apart (m := fieldMap3) (q := ⟨10, 1, 0⟩) (by decide) fieldMap3_wellFormed.fits (by decide), fun fld => ?_⟩
  · refine decodeFields_eq_of_registers fun k => ?_
    rw [decodeField_eq_registerOf fieldMap3_wellFormed.width]
    match k with
    | 1 | 3 | 5 => exact BitVec.signExtend_eq _
    | 0 | 2 | 4 | 6 | 7 | 8 | 9 | 10 => rfl
  · have hused : ∀ e ∈ fieldMap3, e.reg.val ≠ 9 ∧ e.reg.val ≠ 10 := by decide
    obtain ⟨h9, h10⟩ := hused e he
    simp [h9.symm, h10.symm]
  · refine decodeFields_eq_of_registers fun k => ?_
    rw [decodeField_placeFields fieldMap3_wellFormed]
    match k with
    | 1 | 3 | 5 => exact BitVec.signExtend_eq _
    | 0 | 2 | 4 | 6 | 7 | 8 | 9 | 10 => rfl

end Sys2Proof.Machine

/-! ## Proofs for 43_subframe_codec, the words of a subframe and a decode (R200 to R204, R211, R212) -/

namespace Sys2Proof.Machine

/-! ### Where the words stand (R200, R201) -/

theorem wordStart_one (p : Nat) : wordStart p 1 = p := rfl

theorem wordStart_succ (p k : Nat) : wordStart p (k + 1) = p + 30 * k := rfl

/-- A word lies within the bits of its subframe (R200). -/
theorem wordStart_add_le {p w n : Nat} (hw : w ≤ 10) (h : p + 300 ≤ n) : wordStart p w + 30 ≤ n := by
  simp only [wordStart, wordBits]
  omega

/-- Bit k of a word, counted from 1, is the k-th bit from where the word starts (R14, R200). -/
theorem getElem?_stream_wordAt {v : View} {p w k : Nat} (hword : wordStart p w + 30 ≤ v.stream.length) (hk : 1 ≤ k)
    (hk30 : k ≤ 30) : v.stream[p + 30 * (w - 1) + (k - 1)]? = some ((wordAt v p w).getLsbD (30 - k)) := by
  have hbit : (wordAt v p w).getLsbD (30 - 1 - (k - 1)) = _ :=
    getLsbD_takeBits v.stream (wordStart p w) 30 (k - 1) hword (by omega)
  rw [show 30 - k = 30 - 1 - (k - 1) by omega, hbit]
  exact List.getElem?_eq_getElem _

theorem carriedAt_one (v : View) (p : Nat) : carriedAt v p 1 = prev2At v.carry v.stream p := rfl

/-- The two bits before a later word are the last two of the word before it (R201). -/
theorem carriedAt_succ {v : View} {p w : Nat} (hw : 1 ≤ w) (hword : wordStart p w + 30 ≤ v.stream.length) :
    carriedAt v p (w + 1) = (wordAt v p w).extractLsb' 0 2 := by
  have hstart : wordStart p (w + 1) = wordStart p w + 28 + 2 := by
    simp only [wordStart, wordBits]
    omega
  have hsplit : wordAt v p w = takeBits v.stream (wordStart p w) 28 ++ takeBits v.stream (wordStart p w + 28) 2 :=
    takeBits_add v.stream (wordStart p w) 28 2 hword
  rw [carriedAt, hstart, prev2At_add_two, hsplit]
  exact BitVec.extractLsb'_append_eq_right.symm

/-- Settles O41: the bits of a `take`, and the two bits before the first and before a later word. -/
theorem subframeWordsStandBackToBack : Obligations.SubframeWordsStandBackToBack := by
  intro v p w hlo hhi hlen
  refine ⟨fun k => getElem?_stream_wordAt (wordStart_add_le hhi hlen), ?_, fun h2 => ?_, rfl, wordOk_iff _ _⟩
  · rintro rfl
    exact carriedAt_one v p
  · have h := carriedAt_succ (v := v) (Nat.le_sub_one_of_lt h2) (wordStart_add_le (by omega) hlen)
    rwa [Nat.sub_add_cancel hlo] at h

/-! ### The validity flags (R202) -/

/-- The flag of word j + 1 in VFLAGS (R202). -/
theorem flagOf_decodeSubframe (v : View) (p : Nat) {j : Nat} (hj : j < 10) :
    flagOf (decodeSubframe v p).vflags (j + 1) = validityFlag v.parityEn (okAt v p (j + 1)) := by
  refine (flagOf_packFlags (flagsAt v p) j (by simpa [flagsAt] using hj) hj).trans ?_
  simp [flagsAt]

/-- The count of failing words is the count of their flags in VFLAGS (R202). -/
theorem decodeSubframe_fails (v : View) (p : Nat) : (decodeSubframe v p).fails =
    ((List.range 10).filter fun j => flagOf (decodeSubframe v p).vflags (j + 1) == 2#2).length := by
  have hfails : (decodeSubframe v p).fails =
      (List.range 10).countP fun j => validityFlag v.parityEn (okAt v p (j + 1)) == 2#2 := List.countP_map
  rw [hfails, List.countP_eq_length_filter]
  refine congrArg List.length (List.filter_congr fun j hj => ?_)
  rw [flagOf_decodeSubframe v p (List.mem_range.mp hj)]

/-- No word fails when parity is off (R202). -/
theorem decodeSubframe_fails_of_parity_off {v : View} (p : Nat) (hoff : v.parityEn = false) :
    (decodeSubframe v p).fails = 0 := by
  rw [decodeSubframe_fails, decodeSubframe_vflags_of_parity_off v p hoff]
  decide

/-- Settles O42: VFLAGS unpacked word by word, and the count taken over what was unpacked. -/
theorem validityFlagsOfADecode : Obligations.ValidityFlagsOfADecode := by
  intro v p
  refine ⟨fun w hlo hhi => ?_, decodeSubframe_fails v p, fun hoff =>
    ⟨decodeSubframe_fails_of_parity_off p hoff, decodeSubframe_vflags_of_parity_off v p hoff⟩⟩
  obtain ⟨j, rfl⟩ := Nat.exists_eq_add_of_le' hlo
  exact flagOf_decodeSubframe v p hhi

/-! ### The Telemetry Word and the Handover Word (R203, R204) -/

/-- Values with the same field of one bit have the same bit there. -/
theorem getLsbD_eq_of_extractLsb'_one {n m i j : Nat} {x : BitVec n} {y : BitVec m}
    (h : x.extractLsb' i 1 = y.extractLsb' j 1) : x.getLsbD i = y.getLsbD j := by
  simpa using congrArg (fun v => v.getLsbD 0) h

/-- The fields of TLM: MSG, ISF and RSV (R203). -/
theorem tlmOf_fields (d : BitVec 24) : (tlmOf d).extractLsb' 0 14 = d.extractLsb' 2 14 ∧
    (tlmOf d).extractLsb' 14 1 = d.extractLsb' 1 1 ∧ (tlmOf d).extractLsb' 15 1 = d.extractLsb' 0 1 := by
  refine ⟨BitVec.extractLsb'_append_eq_right, ?_, ?_⟩
  · exact (BitVec.extractLsb'_append_eq_of_le (by decide)).trans BitVec.extractLsb'_append_eq_right
  · exact (BitVec.extractLsb'_append_eq_of_le (by decide)).trans BitVec.extractLsb'_append_eq_left

/-- The fields of HOW: TOW, ALERT, AS and SFID (R204). -/
theorem howOf_fields (d : BitVec 24) : (howOf d).extractLsb' 0 17 = d.extractLsb' 7 17 ∧
    (howOf d).extractLsb' 17 1 = d.extractLsb' 6 1 ∧ (howOf d).extractLsb' 18 1 = d.extractLsb' 5 1 ∧
    (howOf d).extractLsb' 19 3 = d.extractLsb' 2 3 := by
  refine ⟨BitVec.extractLsb'_append_eq_right, ?_, ?_, sfidOfHow_howOf d⟩
  · exact (BitVec.extractLsb'_append_eq_of_le (by decide)).trans BitVec.extractLsb'_append_eq_right
  · exact (BitVec.extractLsb'_append_eq_of_le (by decide)).trans
      ((BitVec.extractLsb'_append_eq_of_le (by decide)).trans BitVec.extractLsb'_append_eq_right)

/-- An identifier has a field map exactly when it is 1, 2 or 3 (R205). -/
theorem fieldMap_eq_none_iff : ∀ sfid : BitVec 3, fieldMap sfid = none ↔ ¬ (sfid = 1 ∨ sfid = 2 ∨ sfid = 3) := by decide

theorem supported_iff_eq : ∀ sfid : BitVec 3, supported sfid = true ↔ sfid = 1 ∨ sfid = 2 ∨ sfid = 3 := by decide

/-- An unsupported identifier leaves the FLD registers 0 (R205, R211). -/
theorem fieldsOf_unsupported {sfid : BitVec 3} (h : ¬ (sfid = 1 ∨ sfid = 2 ∨ sfid = 3)) (d : SourceWords) :
    fieldsOf sfid d = Vector.replicate 11 0 := by
  rw [fieldsOf, (fieldMap_eq_none_iff sfid).mpr h]

/-- Settles O43: the fields of the two fixed words; a field of one bit is a bit. -/
theorem fixedWordsOfADecode : Obligations.FixedWordsOfADecode := by
  intro v p c
  obtain ⟨hmsg, hisf, hrsv⟩ := tlmOf_fields (dataAt v p 1)
  obtain ⟨htow, halert, has, hsfid⟩ := howOf_fields (dataAt v p 2)
  exact ⟨hmsg, getLsbD_eq_of_extractLsb'_one hisf, getLsbD_eq_of_extractLsb'_one hrsv, htow,
    getLsbD_eq_of_extractLsb'_one halert, getLsbD_eq_of_extractLsb'_one has, hsfid, rfl, rfl,
    fun h => fieldsOf_unsupported h (dataAt v p)⟩

/-! ### SF.DEC (R212) -/

section SfDec

variable {s : State} (hb : s.built = true) (hm : s.cmode = .decode ∨ s.cmode = .carry)
include hb hm

theorem sfDec_failsWith_insufficientData (hlen : s.stream.length - s.pos < 300) : FailsWith .sfDec s .insufficientData :=
  (exec_of_legal rfl (readable_iff s.cmode) hb hm).trans (if_neg (Nat.not_le.mpr hlen))

variable {c : Candidate} (hlen : 300 ≤ s.stream.length - s.pos)
  (hc : c = decodeSubframe ⟨s.parityEn, s.thresh, s.prev2, s.stream⟩ s.pos)
include hlen hc

/-- With the 300 bits of a subframe there, SF.DEC turns on the identifier of the decode (R212). -/
theorem exec_sfDec_of_decode : exec .sfDec s =
    if supported c.sfid then succeed ((s.storeFrame c).seek (s.pos + 300)) (resNat c.fails)
    else fail s .unsupportedSubframe := by
  rw [hc, ← State.view_of_readable hm]
  exact (exec_of_legal rfl (readable_iff s.cmode) hb hm).trans (if_pos hlen)

/-- SF.DEC stores the frame of a supported identifier and moves past the subframe (R212). -/
theorem exec_sfDec_ok (hsfid : c.sfid = 1 ∨ c.sfid = 2 ∨ c.sfid = 3) :
    exec .sfDec s = .next (((s.storeFrame c).seek (s.pos + 300)).answer .ok (resNat c.fails)) :=
  (exec_sfDec_of_decode hb hm hlen hc).trans (if_pos ((supported_iff_eq c.sfid).mpr hsfid))

theorem sfDec_failsWith_unsupported (hsfid : ¬ (c.sfid = 1 ∨ c.sfid = 2 ∨ c.sfid = 3)) :
    FailsWith .sfDec s .unsupportedSubframe :=
  (exec_sfDec_of_decode hb hm hlen hc).trans (if_neg (mt (supported_iff_eq c.sfid).mp hsfid))

end SfDec

/-- Settles O47: the mode check, the length check and the identifier, in the order of R288. -/
theorem sfDecDecodesAtThePosition : Obligations.SfDecDecodesAtThePosition := fun s a =>
  ⟨decode_encode_cmd .sfDec rfl a, failsWith_wrongMode rfl (readable_iff s.cmode), sfDec_failsWith_insufficientData,
    fun hb hm hlen => ⟨_, rfl, exec_sfDec_ok hb hm hlen rfl, sfDec_failsWith_unsupported hb hm hlen rfl⟩⟩

end Sys2Proof.Machine

/-! ## Proofs for 43_subframe_codec, the encoder (R213 to R215)

The stream after SF.ENC is the stream before it and `writtenBits`: by recursion over the words, each after the last two bits of
the word before it. -/

namespace Sys2Proof.Machine

/-! ### The solved words (R214) -/

/-- The last two bits of an encoded word are those of its parity (R164). -/
theorem extractLsb'_encword_last (d : BitVec 24) (p : BitVec 2) :
    (encword d p).extractLsb' 0 2 = (parity d p).extractLsb' 0 2 :=
  BitVec.extractLsb'_append_eq_of_add_le (by decide)

/-- A solved word is the word with some two bits put into its last two data bits (R214). -/
theorem exists_solveT_eq (d : BitVec 24) (p : BitVec 2) : ∃ t : BitVec 2, solveT d p = d ||| t.setWidth 24 := by
  unfold solveT
  split
  next t ht =>
    have hsmall : ∀ u ∈ [(0 : BitVec 24), 1, 2, 3], u.toNat < 4 := by simp
    exact ⟨t.setWidth 2, by rw [setWidth_setWidth_of_lt_four (hsmall t (List.mem_of_find?_eq_some ht))]⟩
  next => exact ⟨0, by simp⟩

/-- The other data bits stay as they are (R214). -/
theorem extractLsb'_solveT (d : BitVec 24) (p : BitVec 2) {lo : Nat} (hlo : 2 ≤ lo) (n : Nat) :
    (solveT d p).extractLsb' lo n = d.extractLsb' lo n := by
  obtain ⟨t, ht⟩ := exists_solveT_eq d p
  refine BitVec.eq_of_getLsbD_eq fun i hi => ?_
  have habove : t.getLsbD (lo + i) = false := BitVec.getLsbD_of_ge t _ (by omega)
  simp [ht, habove]

/-- When one value of the last two data bits is the only one that solves the word, that value is taken (R214). -/
theorem solveT_eq_of_unique {d : BitVec 24} {p t : BitVec 2}
    (h : ∀ u : BitVec 2, (parity (d ||| u.setWidth 24) p).extractLsb' 0 2 = 0 ↔ u = t) : solveT d p = d ||| t.setWidth 24 := by
  have hsolves : solves d p ∘ BitVec.setWidth 24 = fun u => u == t := funext fun u => by
    rw [Function.comp_apply, solves, Bool.eq_iff_iff, beq_iff_eq, beq_iff_eq, h u]
  have hfirst : ∀ t : BitVec 2, [0, 1, 2, 3].find? (fun u => u == t) = some t := by decide
  have hfind : [0, 1, 2, 3].find? (solves d p) = some (t.setWidth 24) := by
    have hmap := List.find?_map (p := solves d p) (f := BitVec.setWidth 24) (l := [(0 : BitVec 2), 1, 2, 3])
    rw [hsolves, hfirst t] at hmap
    exact hmap
  rw [solveT, hfind]

/-- Settles O48: exactly one value solves the word, so it is the first and it is taken. -/
theorem solvedWordsEndInZeros : Obligations.SolvedWordsEndInZeros := by
  intro d p hd
  obtain ⟨t, ht⟩ := exists_parity_low_eq_zero hd p
  have hzero : (parity (solveT d p) p).extractLsb' 0 2 = 0 := by rw [solveT_eq_of_unique ht]; exact (ht t).mpr rfl
  refine ⟨t.setWidth 24, by simp; omega, solveT_eq_of_unique ht, hzero, fun u hu hsolved => ?_,
    (extractLsb'_encword_last _ p).trans hzero⟩
  have hu4 : u.toNat < 4 := by simp at hu; omega
  rw [← setWidth_setWidth_of_lt_four hu4] at hsolved hu
  rw [(ht _).mp hsolved] at hu
  exact absurd hu (lt_irrefl _)

/-! ### The ten words written (R215) -/

/-- The last two bits written after n words of source data d, when pv stood before the first (R215). -/
def carriedAfter (pv : BitVec 2) (d : SourceWords) : Nat → BitVec 2
  | 0 => pv
  | n + 1 => (encword (sentWord d (n + 1) (carriedAfter pv d n)) (carriedAfter pv d n)).extractLsb' 0 2

/-- The source data sent as word w (R215). -/
def sentData (pv : BitVec 2) (d : SourceWords) (w : Nat) : BitVec 24 := sentWord d w (carriedAfter pv d (w - 1))

/-- Word w as it is written (R215). -/
def writtenWord (pv : BitVec 2) (d : SourceWords) (w : Nat) : BitVec 30 := encword (sentData pv d w) (carriedAfter pv d (w - 1))

/-- The bits of the first n words (R215). -/
def writtenBits (pv : BitVec 2) (d : SourceWords) : Nat → List Bool
  | 0 => []
  | n + 1 => writtenBits pv d n ++ bitsOf 30 (writtenWord pv d (n + 1))

theorem length_writtenBits (pv : BitVec 2) (d : SourceWords) (n : Nat) : (writtenBits pv d n).length = 30 * n := by
  induction n with
  | zero => rfl
  | succ n ih => rw [writtenBits, List.length_append, ih, length_bitsOf, Nat.mul_succ]

/-- The written bits around one of the words. -/
theorem exists_writtenBits_eq (pv : BitVec 2) (d : SourceWords) {j n : Nat} (hj : j < n) :
    ∃ rest, writtenBits pv d n = writtenBits pv d j ++ (bitsOf 30 (writtenWord pv d (j + 1)) ++ rest) := by
  induction n, Nat.succ_le_of_lt hj using Nat.le_induction with
  | base => exact ⟨[], by rw [List.append_nil]; rfl⟩
  | succ n hn ih =>
    obtain ⟨rest, hrest⟩ := ih hn
    exact ⟨rest ++ bitsOf 30 (writtenWord pv d (n + 1)), by rw [writtenBits, hrest, List.append_assoc, List.append_assoc]⟩

/-- The last two bits of a stream are those of the word appended last. -/
theorem prev2At_append_word (carry : BitVec 2) (bs : List Bool) (w : BitVec 30) :
    prev2At carry (bs ++ bitsOf 30 w) (bs ++ bitsOf 30 w).length = w.extractLsb' 0 2 := by
  have hword : takeBits (bs ++ bitsOf 30 w) bs.length 30 = w := by
    simpa using takeBits_append_bitsOf bs 30 w []
  have hlast := carriedAt_succ (v := ⟨false, 0, carry, bs ++ bitsOf 30 w⟩) (p := bs.length) (le_refl 1)
    (by simp [wordStart_one])
  rw [wordAt, wordStart_one, hword] at hlast
  rw [← hlast, List.length_append, length_bitsOf]
  rfl

/-- Appending the first n words: the bits written, and the last two of them before the next word (R215). -/
theorem foldl_appendWord (carry : BitVec 2) (d : SourceWords) (bs : List Bool) (n : Nat) :
    (List.range' 1 n).foldl (appendWord carry d) bs = bs ++ writtenBits (prev2At carry bs bs.length) d n ∧
      prev2At carry (bs ++ writtenBits (prev2At carry bs bs.length) d n)
        (bs ++ writtenBits (prev2At carry bs bs.length) d n).length = carriedAfter (prev2At carry bs bs.length) d n := by
  induction n with
  | zero => simp [writtenBits, carriedAfter]
  | succ n ih =>
    obtain ⟨hbits, hcarried⟩ := ih
    rw [List.range'_concat, List.foldl_append, hbits, writtenBits, ← List.append_assoc]
    refine ⟨?_, prev2At_append_word carry _ _⟩
    simp only [List.foldl_cons, List.foldl_nil, appendWord, hcarried, Nat.add_comm, Nat.one_mul]
    rfl

/-- The stream after the ten words (R215). -/
theorem appendSubframe_eq (carry : BitVec 2) (d : SourceWords) (bs : List Bool) :
    appendSubframe carry d bs = bs ++ writtenBits (prev2At carry bs bs.length) d 10 :=
  (foldl_appendWord carry d bs 10).1

/-! ### SF.ENC (R215) -/

section SfEnc

variable {s : State} (hb : s.built = true) (hm : s.cmode = .encode)
include hb hm

theorem sfEnc_failsWith_outOfRange (hfull : capBits < s.stream.length + 300) : FailsWith .sfEnc s .outOfRange :=
  (exec_of_legal rfl (writable_iff s.cmode) hb hm).trans (if_neg (by rw [fits_iff, subframeBits]; omega))

variable (hroom : s.stream.length + 300 ≤ capBits)
include hroom

/-- With room for a subframe, SF.ENC turns on the identifier in HOW (R215). -/
theorem exec_sfEnc_of_room : exec .sfEnc s =
    match fieldMap (sfidOfHow s.how) with
    | some m => succeed (s.encodeFrame m) (resNat (s.stream.length + 300))
    | none => fail s .unsupportedSubframe :=
  (exec_of_legal rfl (writable_iff s.cmode) hb hm).trans (if_pos ((fits_iff s _).mpr hroom))

theorem sfEnc_failsWith_unsupported (hmap : fieldMap (sfidOfHow s.how) = none) : FailsWith .sfEnc s .unsupportedSubframe := by
  rw [FailsWith, exec_sfEnc_of_room hb hm hroom, hmap, fail_eq]

/-- SF.ENC of a supported identifier appends the ten words of the frame registers (R215). -/
theorem exec_sfEnc_ok {m : List FieldEntry} (hmap : fieldMap (sfidOfHow s.how) = some m) : exec .sfEnc s = .next
    { s with stream := s.stream ++ writtenBits (prev2At 0 s.stream s.stream.length) (frameWord m s) 10,
             pos := s.stream.length + 300, response := some ⟨.ok, resNat (s.stream.length + 300)⟩ } := by
  have hframe : s.encodeFrame m =
      { s with stream := s.stream ++ writtenBits (prev2At 0 s.stream s.stream.length) (frameWord m s) 10,
               pos := s.stream.length + 300 } := by
    rw [State.encodeFrame, State.carryBits_of_encode hm, appendSubframe_eq]
    simp [State.seekEnd, State.seek, length_writtenBits]
  rw [exec_sfEnc_of_room hb hm hroom, hmap]
  simp only [succeed_eq, hframe]
  rfl

end SfEnc

/-- Settles O49: the failures in the order of R288, then the ten words with what is sent in each. -/
theorem sfEncAppendsOneSubframe : Obligations.SfEncAppendsOneSubframe := by
  intro s a
  refine ⟨decode_encode_cmd .sfEnc rfl a, failsWith_wrongMode rfl (writable_iff s.cmode), sfEnc_failsWith_outOfRange,
    sfEnc_failsWith_unsupported, fun hb hm hroom m hmap => ?_, fieldMap_eq_none_iff⟩
  refine ⟨sentData _ (frameWord m s), writtenWord _ (frameWord m s), fun w => carriedAfter _ (frameWord m s) (w - 1),
    exec_sfEnc_ok hb hm hroom hmap, fun k _ _ => rfl, rfl, fun k hk _ => ?_, rfl, rfl, fun k hk hk9 => ?_, rfl⟩
  · obtain ⟨j, rfl⟩ := Nat.exists_eq_add_of_le' hk
    rfl
  · rw [sentData, sentWord, if_neg (by omega), frameWord, if_neg (by omega), if_neg (by omega)]

end Sys2Proof.Machine

/-! ## Proofs for 43_subframe_codec, the round trip (R216)

The words read back at the end of a stream are the words written there, after the same two bits, so the source data read is the
data sent; and the fixed words and the fields of that data are the registers. A decode of the same 300 bits elsewhere is the
same decode (`SameSubframe.decodeSubframe_eq`). -/

namespace Sys2Proof.Machine

/-! ### Decoding the words written -/

section Written

variable (parityEn : Bool) (thresh : BitVec 4) (carry : BitVec 2) (bs : List Bool) (d : SourceWords)

/-- The view of a stream to whose end the ten words of source data d were appended (R215). -/
def writtenView : View := ⟨parityEn, thresh, carry, bs ++ writtenBits (prev2At carry bs bs.length) d 10⟩

theorem length_writtenView : (writtenView parityEn thresh carry bs d).stream.length = bs.length + 300 := by
  simp [writtenView, length_writtenBits]

/-- The words read back are the words written (R200, R215). -/
theorem wordAt_written {w : Nat} (hlo : 1 ≤ w) (hhi : w ≤ 10) :
    wordAt (writtenView parityEn thresh carry bs d) bs.length w = writtenWord (prev2At carry bs bs.length) d w := by
  obtain ⟨j, rfl⟩ := Nat.exists_eq_add_of_le' hlo
  obtain ⟨rest, hrest⟩ := exists_writtenBits_eq (prev2At carry bs bs.length) d (Nat.lt_of_succ_le hhi)
  have hstart : wordStart bs.length (j + 1) = (bs ++ writtenBits (prev2At carry bs bs.length) d j).length := by
    rw [List.length_append, length_writtenBits, wordStart_succ]
  rw [wordAt, writtenView, hstart, hrest, ← List.append_assoc]
  exact takeBits_append_bitsOf _ 30 _ rest

/-- So are the bits before each (R201, R215). -/
theorem carriedAt_written {w : Nat} (hlo : 1 ≤ w) (hhi : w ≤ 10) :
    carriedAt (writtenView parityEn thresh carry bs d) bs.length w = carriedAfter (prev2At carry bs bs.length) d (w - 1) := by
  obtain rfl | ⟨j, rfl⟩ : w = 1 ∨ ∃ j, w = j + 1 + 1 := by
    obtain rfl | h := Nat.eq_or_lt_of_le hlo
    · exact .inl rfl
    · exact .inr ⟨w - 2, by omega⟩
  · exact prev2At_append carry bs _ (le_refl _)
  · have hword := wordStart_add_le (w := j + 1) (by omega) (length_writtenView parityEn thresh carry bs d).ge
    rw [carriedAt_succ (Nat.succ_pos j) hword, wordAt_written parityEn thresh carry bs d (Nat.succ_pos j) (by omega)]
    rfl

/-- The source data read back is the data sent, and every word verifies (R164, R216). -/
theorem dataAt_written {w : Nat} (hlo : 1 ≤ w) (hhi : w ≤ 10) :
    dataAt (writtenView parityEn thresh carry bs d) bs.length w = sentData (prev2At carry bs bs.length) d w ∧
      okAt (writtenView parityEn thresh carry bs d) bs.length w = true := by
  rw [dataAt, okAt, wordAt_written parityEn thresh carry bs d hlo hhi, carriedAt_written parityEn thresh carry bs d hlo hhi]
  exact ⟨wordData_encword _ _, wordOk_encword _ _⟩

/-- All ten flags say valid, or unchecked with parity off (R202, R216). -/
theorem flagsAt_written : flagsAt (writtenView parityEn thresh carry bs d) bs.length =
    List.replicate 10 (validityFlag parityEn true) := by
  refine List.eq_replicate_iff.mpr ⟨by simp [flagsAt], fun f hf => ?_⟩
  obtain ⟨j, hj, rfl⟩ := List.mem_map.mp hf
  rw [(dataAt_written parityEn thresh carry bs d (Nat.succ_pos j) (List.mem_range.mp hj)).2]
  rfl

end Written

/-- Ten good words: none fails, and VFLAGS shows them valid, or unchecked with parity off (R202). -/
theorem flags_of_good_words : ∀ parityEn : Bool,
    packFlags (List.replicate 10 (validityFlag parityEn true)) = (if parityEn then 0x55555 else 0) ∧
      countFails (List.replicate 10 (validityFlag parityEn true)) = 0 := by decide

/-! ### The fixed words and the fields come back (R203, R204, R206, R213) -/

/-- TLM is its fields put together (R33). -/
theorem tlm_eq_append (tlm : BitVec 16) : tlm.extractLsb' 15 1 ++ tlm.extractLsb' 14 1 ++ tlm.extractLsb' 0 14 = tlm := by
  rw [BitVec.extractLsb'_append_extractLsb'_eq_extractLsb' (show 15 = 14 + 1 from rfl),
    BitVec.extractLsb'_append_extractLsb'_eq_extractLsb' (show 14 = 0 + 14 from rfl)]
  exact BitVec.extractLsb'_eq_self

/-- HOW is its fields put together (R34). -/
theorem how_eq_append (how : BitVec 22) :
    how.extractLsb' 19 3 ++ how.extractLsb' 18 1 ++ how.extractLsb' 17 1 ++ how.extractLsb' 0 17 = how := by
  rw [BitVec.extractLsb'_append_extractLsb'_eq_extractLsb' (show 19 = 18 + 1 from rfl),
    BitVec.extractLsb'_append_extractLsb'_eq_extractLsb' (show 18 = 17 + 1 from rfl),
    BitVec.extractLsb'_append_extractLsb'_eq_extractLsb' (show 17 = 0 + 17 from rfl)]
  exact BitVec.extractLsb'_eq_self

/-- The fields of the Telemetry Word of an encode: RSV, ISF and MSG (R213). -/
theorem frameWord1_fields (tlm : BitVec 16) : (frameWord1 tlm).extractLsb' 0 1 = tlm.extractLsb' 15 1 ∧
    (frameWord1 tlm).extractLsb' 1 1 = tlm.extractLsb' 14 1 ∧ (frameWord1 tlm).extractLsb' 2 14 = tlm.extractLsb' 0 14 := by
  refine ⟨BitVec.extractLsb'_append_eq_right, ?_, ?_⟩
  · exact (BitVec.extractLsb'_append_eq_of_le (by decide)).trans BitVec.extractLsb'_append_eq_right
  · exact (BitVec.extractLsb'_append_eq_of_le (by decide)).trans
      ((BitVec.extractLsb'_append_eq_of_le (by decide)).trans BitVec.extractLsb'_append_eq_right)

/-- The fields of the Handover Word of an encode: SFID, AS, ALERT and TOW (R213). -/
theorem frameWord2_fields (how : BitVec 22) : (frameWord2 how).extractLsb' 2 3 = how.extractLsb' 19 3 ∧
    (frameWord2 how).extractLsb' 5 1 = how.extractLsb' 18 1 ∧ (frameWord2 how).extractLsb' 6 1 = how.extractLsb' 17 1 ∧
    (frameWord2 how).extractLsb' 7 17 = how.extractLsb' 0 17 := by
  refine ⟨?_, ?_, ?_, ?_⟩
  · exact (BitVec.extractLsb'_append_eq_of_le (by decide)).trans BitVec.extractLsb'_append_eq_right
  · exact (BitVec.extractLsb'_append_eq_of_le (by decide)).trans
      ((BitVec.extractLsb'_append_eq_of_le (by decide)).trans BitVec.extractLsb'_append_eq_right)
  · exact (BitVec.extractLsb'_append_eq_of_le (by decide)).trans ((BitVec.extractLsb'_append_eq_of_le (by decide)).trans
      ((BitVec.extractLsb'_append_eq_of_le (by decide)).trans BitVec.extractLsb'_append_eq_right))
  · exact (BitVec.extractLsb'_append_eq_of_le (by decide)).trans ((BitVec.extractLsb'_append_eq_of_le (by decide)).trans
      ((BitVec.extractLsb'_append_eq_of_le (by decide)).trans BitVec.extractLsb'_append_eq_left))

/-- A decode of the Telemetry Word of an encode gives the register back (R203, R213). -/
theorem tlmOf_frameWord1 (tlm : BitVec 16) : tlmOf (frameWord1 tlm) = tlm := by
  obtain ⟨hrsv, hisf, hmsg⟩ := frameWord1_fields tlm
  rw [tlmOf, hrsv, hisf, hmsg]
  exact tlm_eq_append tlm

/-- So does a decode of the Handover Word, whatever value solves its last two bits (R204, R213, R214). -/
theorem howOf_solveT_frameWord2 (how : BitVec 22) (p : BitVec 2) : howOf (solveT (frameWord2 how) p) = how := by
  obtain ⟨hsfid, has, halert, htow⟩ := frameWord2_fields how
  rw [howOf, sfidOf, extractLsb'_solveT _ _ (by decide), extractLsb'_solveT _ _ (by decide),
    extractLsb'_solveT _ _ (by decide), extractLsb'_solveT _ _ (by decide), hsfid, has, halert, htow]
  exact how_eq_append how

/-- The pieces of the field maps stand in words 3 to 10, and not on the last two bits of word 10 (R208 to R210, R214). -/
theorem fieldMap_pieces : ∀ sfid : BitVec 3, ∀ m ∈ fieldMap sfid, ∀ e ∈ m, ∀ p ∈ e.pieces,
    3 ≤ p.word ∧ p.word ≤ 10 ∧ (p.word = 10 → 2 ≤ p.lo) := by decide

/-- A well-formed frame (R216): every register that the map names fits its field, every other one is 0. -/
structure FrameFits (m : List FieldEntry) (fld : Vector Word 11) : Prop where
  fits : ∀ e ∈ m, e.extend (rawRegister fld e) = fld[e.reg]
  unused : ∀ k : Fin 11, (∀ e ∈ m, e.reg ≠ k) → fld[k] = 0

/-- Registers that fit their fields come back (R206). -/
theorem registerOf_rawRegister {m : List FieldEntry} {fld : Vector Word 11} (h : FrameFits m fld) (k : Fin 11) :
    registerOf m (rawRegister fld) k = fld[k] := by
  unfold registerOf
  split
  next e he =>
    obtain rfl : e.reg = k := by simpa using List.find?_some he
    exact h.fits e (List.mem_of_find?_eq_some he)
  next hnone =>
    refine (h.unused k fun e he => ?_).symm
    simpa using List.find?_eq_none.mp hnone e he

/-- A frame that fits comes back from a decode of its ten words (R216). -/
theorem decodeSubframe_written {s : State} {m : List FieldEntry} (hmap : fieldMap (sfidOfHow s.how) = some m)
    (hfits : FrameFits m s.fld) (parityEn : Bool) (thresh : BitVec 4) (carry : BitVec 2) :
    decodeSubframe (writtenView parityEn thresh carry s.stream (frameWord m s)) s.stream.length =
      ⟨s.tlm, s.how, s.fld, if parityEn then 0x55555 else 0, sfidOfHow s.how, 0⟩ := by
  have hdata := fun w hlo hhi => (dataAt_written parityEn thresh carry s.stream (frameWord m s) (w := w) hlo hhi).1
  have hflags := flagsAt_written parityEn thresh carry s.stream (frameWord m s)
  generalize writtenView parityEn thresh carry s.stream (frameWord m s) = v at hdata hflags ⊢
  have htlm : tlmOf (dataAt v s.stream.length 1) = s.tlm := by
    rw [hdata 1 (by decide) (by decide)]
    exact tlmOf_frameWord1 s.tlm
  have hhow : howOf (dataAt v s.stream.length 2) = s.how := by
    rw [hdata 2 (by decide) (by decide)]
    exact howOf_solveT_frameWord2 s.how _
  have hsfid : sfidOf (dataAt v s.stream.length 2) = sfidOfHow s.how := by rw [← sfidOfHow_howOf, hhow]
  have hfld : fieldsOf (sfidOfHow s.how) (dataAt v s.stream.length) = s.fld := by
    rw [fieldsOf, hmap]
    refine decodeFields_eq_of_registers fun k =>
      (decodeField_of_placed (fieldMap_wellFormed hmap) (fun e he p hp => ?_) k).trans (registerOf_rawRegister hfits k)
    obtain ⟨hlo, hhi, hlast⟩ := fieldMap_pieces _ m hmap e he p hp
    have hplaced : frameWord m s p.word = placeFields m s.fld p.word := by
      rw [frameWord, if_neg (by omega), if_neg (by omega)]
    rw [Piece.bits, hdata p.word (by omega) hhi, sentData, sentWord, hplaced]
    split
    · exact extractLsb'_solveT _ _ (hlast (by omega)) _
    · rfl
  obtain ⟨hvflags, hfails⟩ := flags_of_good_words parityEn
  rw [decodeSubframe, htlm, hhow, hsfid, hfld, hflags, hvflags, hfails]

/-- Settles O50: what SF.DEC reads is the subframe SF.ENC wrote, and its decode is the frame. -/
theorem decodingAnEncodedFrameGivesTheFrame : Obligations.DecodingAnEncodedFrameGivesTheFrame := by
  intro s u m hb hm hroom hmap hfields hunused
  refine ⟨_, exec_sfEnc_ok hb hm hroom hmap, fun hub hum hbits hcarried => ?_⟩
  have hfits : FrameFits m s.fld := ⟨fun e he => (hfields e he).symm, hunused⟩
  have hwritten : (writtenBits (prev2At 0 s.stream s.stream.length) (frameWord m s) 10).length = 300 :=
    length_writtenBits _ _ 10
  have hread : (u.stream.drop u.pos).take 300 = writtenBits (prev2At 0 s.stream s.stream.length) (frameWord m s) 10 :=
    hbits.trans (List.drop_left' rfl)
  have hlen : 300 ≤ u.stream.length - u.pos := by
    have := congrArg List.length hread
    rw [hwritten, List.length_take, List.length_drop] at this
    omega
  have hsame : SameSubframe ⟨u.parityEn, u.thresh, u.prev2, u.stream⟩
      (writtenView u.parityEn u.thresh 0 s.stream (frameWord m s)) u.pos s.stream.length :=
    { parityEn_eq := rfl
      bits_eq := by
        rw [writtenView, List.drop_left, List.take_of_length_le (le_of_eq hwritten)]
        exact hread
      carried_eq := hcarried.trans (prev2At_append 0 s.stream _ (le_refl _)).symm }
  have hdecode := hsame.decodeSubframe_eq.trans (decodeSubframe_written hmap hfits u.parityEn u.thresh 0)
  have hsfid : sfidOfHow s.how = 1 ∨ sfidOfHow s.how = 2 ∨ sfidOfHow s.how = 3 :=
    (supported_iff_eq _).mp (by rw [supported, hmap]; rfl)
  exact exec_sfDec_ok hub hum hlen hdecode.symm hsfid

end Sys2Proof.Machine

/-! ## Proofs for 44_stream_decoder: DEC.RAW and DEC.BYTE, and the equivalence of the two modes (R240 to R247)

Both commands are a scan between an update that supplies the bits and one that takes the scanned bits away. `Reports` says once
what such a command leaves of its scan. For the equivalence both modes are compared with one walk over the whole logical stream
(`acceptedFrom`): a raw-mode call is a scan of that stream by R185 item 5, a byte-mode call is a part of one by items 5 and 6. -/

namespace Sys2Proof.Machine

/-! ### Where a scan leaves the bits ahead (R184, R185) -/

section ScanEnds

variable {v : View} {p : Nat}

/-- Where a scan stops for want of bits there are fewer than a subframe has. -/
theorem sub_lt_of_undecided {q : Nat} (h : undecided v q) : v.stream.length - q < 300 := by
  obtain h8 | ⟨-, h300⟩ := h
  · exact h8.trans (by decide)
  · exact h300

/-- A scan that starts where one stopped for want of bits does not move (R184). -/
theorem scanFrom_of_undecided (h : undecided v p) : (scanFrom v p).pos = p ∧ (scanFrom v p).frame = none := by
  by_cases h8 : v.stream.length - p < 8
  · rw [scanFrom_of_short h8]
    exact ⟨rfl, rfl⟩
  · obtain ⟨hpre, h300⟩ := h.resolve_left h8
    rw [scanFrom_of_cut (Nat.not_lt.mp h8) hpre h300]
    exact ⟨rfl, rfl⟩

/-- A scan without a frame stopped for want of bits (R184). -/
theorem undecided_of_scanFrom_none (hnone : (scanFrom v p).frame = none) : undecided v (scanFrom v p).pos :=
  (scanLoop_exhausted v _ p false false (Nat.lt_succ_self _) hnone).1

/-- A scan with a frame went at least one subframe forward (R185 item 3). -/
theorem add_le_pos_of_scanFrom_some {c : Candidate} (hsome : (scanFrom v p).frame = some c) :
    p + 300 ≤ (scanFrom v p).pos := by
  obtain ⟨q, u, r, hpass, hend⟩ := scanFrom_endsAt v p
  generalize scanFrom v p = e at hsome hend
  cases hend with
  | accepted h => exact Nat.add_le_add_right hpass.le 300
  | short h8 => exact absurd hsome nofun
  | cut h8 hpre h300 => exact absurd hsome nofun

/-- Until it accepts, a scan does over a longer stream what it does over the shorter one, the acceptance included (R185
item 6). -/
theorem scanFrom_extend_of_some (more : List Bool) (p : Nat) {c : Candidate} (hsome : (scanFrom v p).frame = some c) :
    scanFrom (v.extend more) p = scanFrom v p := by
  induction p using scan_induction v with
  | short p h8 =>
    rw [scanFrom_of_short h8] at hsome
    exact absurd hsome nofun
  | cut p h8 hpre h300 =>
    rw [scanFrom_of_cut h8 hpre h300] at hsome
    exact absurd hsome nofun
  | accepted p h =>
    rw [(sameSubframe_extend more h.1).scanFrom_of_acceptable rfl h, scanFrom_of_acceptable h]
  | noPreamble p h8 hpre ih =>
    rw [scanFrom_of_no_preamble h8 hpre] at hsome ⊢
    rw [scanFrom_extend_of_no_preamble more h8 hpre, ih hsome]
  | rejected p h hrej ih =>
    rw [scanFrom_of_rejected h hrej] at hsome ⊢
    rw [(sameSubframe_extend more h.1).scanFrom_of_rejected rfl h hrej, ih hsome]

end ScanEnds

/-! ### What a stream decode leaves of its scan (R241, R244, R246) -/

/-- The frame registers a candidate fills (R37). -/
def Candidate.frame (c : Candidate) : Frame := ⟨c.tlm, c.how, c.fld, c.vflags⟩

/-- A command that began in s and scanned to e leaves t: CONSUMED and FRAME_VALID are the scan's, the frame registers are those
of the accepted frame, or what they were (R246). -/
structure Reports (s t : State) (e : ScanEnd) : Prop where
  consumed_eq : t.consumed = e.pos
  frameValid_eq : t.frameValid = e.frame.isSome
  frame_eq : t.frame = (e.frame.map Candidate.frame).getD s.frame

/-- A scan reports itself, whatever was done to the cursor before it. -/
theorem finishScan_reports {s u : State} (e : ScanEnd) (hu : u.frame = s.frame) : Reports s (u.finishScan e) e where
  consumed_eq := State.finishScan_consumed u e
  frameValid_eq := State.finishScan_frameValid u e
  frame_eq := by
    rw [← hu]
    cases hframe : e.frame with
    | none =>
      obtain ⟨htlm, hhow, hfld, hvflags⟩ := State.finishScan_frameRegs_none u e hframe
      rw [State.frame, htlm, hhow, hfld, hvflags]
      rfl
    | some c =>
      obtain ⟨htlm, hhow, hfld, hvflags⟩ := State.finishScan_frameRegs_some u e c hframe
      rw [State.frame, htlm, hhow, hfld, hvflags]
      rfl

theorem Reports.dropConsumed {s t : State} {e : ScanEnd} (h : Reports s t e) : Reports s t.dropConsumed e := { h with }

theorem Reports.closeCursor {s t : State} {e : ScanEnd} (h : Reports s t e) : Reports s t.closeCursor e := by
  rw [State.closeCursor_eq]
  exact { h with }

/-- The response of a stream decode, by whether there is a frame (R246). -/
theorem Reports.answer_cases {s t : State} {e : ScanEnd} (h : Reports s t e) :
    (t.frameValid = true ∧ (t.answer (scanStatus e) (resNat e.pos)).response = some ⟨.ok, BitVec.ofNat 32 t.consumed⟩) ∨
    (t.frameValid = false ∧ (t.answer (scanStatus e) (resNat e.pos)).response =
        some ⟨.insufficientData, BitVec.ofNat 32 t.consumed⟩ ∧
      t.tlm = s.tlm ∧ t.how = s.how ∧ t.fld = s.fld ∧ t.vflags = s.vflags) := by
  obtain ⟨hconsumed, hvalid, hframe⟩ := h
  rw [State.answer_response, hconsumed, hvalid]
  obtain ⟨hst, c, hc⟩ | ⟨hst, hnone⟩ := scanStatus_cases e
  · rw [hst, hc]
    exact .inl ⟨rfl, rfl⟩
  · rw [hnone] at hframe
    obtain ⟨htlm, hhow, hfld, hvflags⟩ := Frame.mk.inj hframe
    rw [hst, hnone]
    exact .inr ⟨rfl, rfl, htlm, hhow, hfld, hvflags⟩

/-! ### One call of either mode -/

/-- What a scan reads of a readable cursor of s over the bits (R66, R185 item 5). -/
abbrev State.viewOf (s : State) (bits : List Bool) : View := ⟨s.parityEn, s.thresh, s.prev2, bits⟩

/-- One byte-mode call with the data bits of a byte: append, scan, drop (R244). -/
def State.byteCall (s : State) (bits : List Bool) : State := (s.appendBits bits).scan.dropConsumed

/-- The scan of a byte-mode call. -/
def State.byteScan (s : State) (bits : List Bool) : ScanEnd := scanFrom (s.viewOf (s.stream ++ bits)) s.pos

/-- The scan of a raw-mode call over the bits. -/
def State.rawScan (s : State) (bits : List Bool) : ScanEnd := scanFrom (s.viewOf bits) 0

theorem rawCall_eq (s : State) (bits : List Bool) :
    s.rawCall bits = ((s.openCursor .decode bits).finishScan (s.rawScan bits)).closeCursor := rfl

theorem rawCall_reports (s : State) (bits : List Bool) : Reports s (s.rawCall bits) (s.rawScan bits) :=
  (finishScan_reports (s := s) (u := s.openCursor .decode bits) (s.rawScan bits) rfl).closeCursor

/-- After a raw-mode call PREV2 is the two bits before the first bit that is not consumed (R126, R241). -/
theorem rawCall_viewOf (s : State) (bits : List Bool) :
    (s.rawCall bits).viewOf (bits.drop (s.rawScan bits).pos) = (s.viewOf bits).drop (s.rawScan bits).pos := by
  have hprev2 : (s.rawCall bits).prev2 = prev2At s.prev2 bits (s.rawScan bits).pos := by
    simp [rawCall_eq, CMode.readable, State.prev2AtPos, State.carryBits]
  rw [State.viewOf, rawCall_parityEn, rawCall_thresh, hprev2]
  rfl

/-- DEC.RAW in mode Closed is a raw-mode call over the staging buffer, with the response of its scan (R241). -/
theorem exec_decRaw {s : State} (hb : s.built = true) (hm : s.cmode = .closed) : exec .decRaw s = .next
    ((s.rawCall (strip s.sb false)).answer (scanStatus (s.rawScan (strip s.sb false)))
      (resNat (s.rawScan (strip s.sb false)).pos)) := by
  have hexec : exec .decRaw s = finishStream s.openRaw.scan (s.rawScan (strip s.sb false)) (s.rawCall (strip s.sb false)) :=
    exec_of_legal rfl (noCursor_iff s.cmode) hb hm
  rw [hexec, finishStream, finish_eq, State.scan, State.finishScan_consumed]
  rfl

@[simp] theorem byteCall_built (s : State) (bits : List Bool) : (s.byteCall bits).built = s.built := by
  simp [State.byteCall, State.scan]
@[simp] theorem byteCall_parityEn (s : State) (bits : List Bool) : (s.byteCall bits).parityEn = s.parityEn := by
  simp [State.byteCall, State.scan]
@[simp] theorem byteCall_thresh (s : State) (bits : List Bool) : (s.byteCall bits).thresh = s.thresh := by
  simp [State.byteCall, State.scan]
@[simp] theorem byteCall_cmode (s : State) (bits : List Bool) : (s.byteCall bits).cmode = s.cmode := by
  simp [State.byteCall, State.scan]
@[simp] theorem byteCall_pos (s : State) (bits : List Bool) : (s.byteCall bits).pos = 0 := by
  simp [State.byteCall]

section ByteCall

variable {s : State} {bits : List Bool} (hm : s.cmode = .carry)
include hm

theorem byteCall_eq : s.byteCall bits = ((s.appendBits bits).finishScan (s.byteScan bits)).dropConsumed := by
  rw [State.byteCall, State.scan, State.view_of_readable (s := s.appendBits bits) (.inr hm)]
  rfl

theorem byteCall_reports : Reports s (s.byteCall bits) (s.byteScan bits) := by
  rw [byteCall_eq hm]
  exact (finishScan_reports (s := s) (u := s.appendBits bits) (s.byteScan bits) rfl).dropConsumed

/-- After a byte-mode call the cursor holds the bits the scan did not consume (R132, R244). -/
theorem byteCall_stream : (s.byteCall bits).stream = (s.stream ++ bits).drop (s.byteScan bits).pos := by
  simp [byteCall_eq hm]

/-- What the next scan reads is what this one read, after the drop of the consumed bits (R132). -/
theorem byteCall_viewOf : (s.byteCall bits).viewOf (s.byteCall bits).stream =
    (s.viewOf (s.stream ++ bits)).drop (s.byteScan bits).pos := by
  have hprev2 : (s.byteCall bits).prev2 = prev2At s.prev2 (s.stream ++ bits) (s.byteScan bits).pos := by
    simp [byteCall_eq hm, State.prev2AtPos, State.carryBits, hm]
  rw [byteCall_stream hm, State.viewOf, byteCall_parityEn, byteCall_thresh, hprev2]
  rfl

end ByteCall

section DecByte

variable {s : State} {b : Byte} {p : BitVec 3} (hb : s.built = true) (hm : s.cmode = .carry)
include hb hm

/-- DEC.BYTE with room for the byte's data bits is a byte-mode call, with the response of its scan (R244). -/
theorem exec_decByte_ok (hroom : s.stream.length + (8 - p.toNat) ≤ capBits) : exec (.decByte b p) s = .next
    ((s.byteCall (dataBits b p)).answer (scanStatus (s.byteScan (dataBits b p))) (resNat (s.byteScan (dataBits b p)).pos)) := by
  have hexec : exec (.decByte b p) s = finishStream (s.appendBits (dataBits b p)).scan
      (scanFrom (s.appendBits (dataBits b p)).view s.pos) (s.byteCall (dataBits b p)) :=
    (exec_of_legal rfl (carried_iff s.cmode) hb hm).trans (if_pos ((fits_iff s _).mpr hroom))
  rw [hexec, finishStream, finish_eq, State.scan, State.finishScan_consumed,
    State.view_of_readable (s := s.appendBits (dataBits b p)) (.inr hm)]
  rfl

theorem decByte_failsWith_outOfRange (hfull : capBits < s.stream.length + (8 - p.toNat)) :
    FailsWith (.decByte b p) s .outOfRange :=
  (exec_of_legal rfl (carried_iff s.cmode) hb hm).trans (if_neg (by rw [fits_iff]; omega))

end DecByte

/-! ### The two commands as sequences of commands (R241, R244)

In the sequence each command leaves its own response; the operations after it do not read it. -/

theorem State.answer_answer (s : State) (st st' : Status) (res res' : Word) :
    (s.answer st res).answer st' res' = s.answer st' res' := rfl

theorem State.finishScan_answer (s : State) (e : ScanEnd) (st : Status) (res : Word) :
    (s.answer st res).finishScan e = (s.finishScan e).answer st res := by
  unfold State.finishScan
  split <;> rfl

theorem State.dropConsumed_answer (s : State) (st : Status) (res : Word) :
    (s.answer st res).dropConsumed = s.dropConsumed.answer st res := rfl

theorem State.closeCursor_answer (s : State) (st : Status) (res : Word) :
    (s.answer st res).closeCursor = s.closeCursor.answer st res := by
  rw [State.closeCursor_eq, State.closeCursor_eq]
  rfl

/-- Settles O55: the three commands, one after the other, are the update, the scan and the update of a raw-mode call. -/
theorem decRawIsOpenScanClose : Obligations.DecRawIsOpenScanClose := by
  intro s a
  refine ⟨decode_encode_cmd .decRaw rfl a, failsWith_wrongMode rfl (noCursor_iff s.cmode), fun hb hm => ?_⟩
  have hscan := exec_syncScan_of_scanFrom (s := s.openRaw.answer .ok (resNat (strip s.sb false).length))
    (e := s.rawScan (strip s.sb false)) hb (.inl rfl) rfl
  refine ⟨_, _, _, exec_of_legal rfl (noCursor_iff s.cmode) hb hm, hscan, exec_bcClose (by simpa [State.openRaw] using hb),
    ?_, ?_⟩
  · rw [exec_decRaw hb hm, State.finishScan_answer, State.answer_answer, State.closeCursor_answer]
    rfl
  · have hle : (s.rawScan (strip s.sb false)).pos ≤ (strip s.sb false).length := (scanFrom_bounds _ (Nat.zero_le _)).2
    rw [length_strip_raw] at hle
    simp [State.openRaw, hle]

/-- Settles O56: likewise for a byte-mode call; BC.DROP answers the position the scan reached. -/
theorem decByteIsAppendScanDrop : Obligations.DecByteIsAppendScanDrop := by
  intro b p s a
  refine ⟨decode_encode_cmd (.decByte b p) rfl a, failsWith_wrongMode rfl (carried_iff s.cmode),
    decByte_failsWith_outOfRange, fun hb hm hroom => ?_⟩
  have hscan := exec_syncScan_of_scanFrom
    (s := (s.appendBits (dataBits b p)).answer .ok (resNat (s.stream.length + (8 - p.toNat))))
    (e := s.byteScan (dataBits b p)) hb (.inr hm) rfl
  refine ⟨_, _, _, scanStatus (s.byteScan (dataBits b p)), exec_bcAppend_ok hb hm hroom, hscan,
    exec_of_legal rfl (carried_iff _) (by simpa using hb) (by simpa using hm), ?_, ?_, ?_, ?_⟩
  · simp [resNat]
  · exact (scanStatus_cases _).imp And.left And.left
  · simp [resNat]
  · rw [exec_decByte_ok hb hm hroom, byteCall_eq hm]
    simp only [State.finishScan_answer, State.answer_answer, State.dropConsumed_answer, State.finishScan_consumed,
      State.answer_consumed]
    rfl

/-! ### The responses, and the bound of the cursor (R246, R247) -/

/-- Settles O57: the scan's report, for a call of either mode. -/
theorem streamDecodesHaveTwoResponses : Obligations.StreamDecodesHaveTwoResponses := by
  rintro s i (⟨rfl, hb, hm⟩ | ⟨b, p, rfl, hb, hm, hroom⟩)
  · exact ⟨_, exec_decRaw hb hm, (rawCall_reports s _).answer_cases⟩
  · exact ⟨_, exec_decByte_ok hb hm hroom, (byteCall_reports hm).answer_cases⟩

/-- A cursor below 300 bits has room for the bits of a byte: CAP_BYTES is at least 40 (R7, R247). -/
theorem room_of_short {n k : Nat} (h : n ≤ 299) : n + (8 - k) ≤ capBits := by
  have hcap := capBytes_bounds.1
  rw [capBits]
  omega

/-- A scan of at most 307 bits leaves fewer than 300 without a frame and at most 7 with one (R247). -/
theorem ahead_of_short_scan {v : View} {p : Nat} (hlen : v.stream.length - p ≤ 307) :
    v.stream.length - (scanFrom v p).pos ≤ 299 ∧
      ((scanFrom v p).frame.isSome = true → v.stream.length - (scanFrom v p).pos ≤ 7) := by
  cases hframe : (scanFrom v p).frame with
  | none =>
    have hlt := sub_lt_of_undecided (undecided_of_scanFrom_none hframe)
    exact ⟨by omega, nofun⟩
  | some c =>
    have hforward := add_le_pos_of_scanFrom_some hframe
    exact ⟨by omega, fun _ => by omega⟩

/-- Settles O58: 299 bits and a byte are at most 307, which `ahead_of_short_scan` cuts back. -/
theorem decByteKeepsTheCursorShort : Obligations.DecByteKeepsTheCursorShort := by
  intro b p s hb hm hpos hlen
  obtain ⟨hshort, hframe⟩ := ahead_of_short_scan (v := s.viewOf (s.stream ++ dataBits b p)) (p := s.pos) (by simp; omega)
  have hahead : (s.byteCall (dataBits b p)).stream.length =
      (s.stream ++ dataBits b p).length - (s.byteScan (dataBits b p)).pos := by
    rw [byteCall_stream hm, List.length_drop]
  refine ⟨_, _, _, exec_decByte_ok hb hm (room_of_short hlen), rfl, (scanStatus_cases _).imp And.left And.left,
    (byteCall_built s (dataBits b p)).trans hb, (byteCall_cmode s (dataBits b p)).trans hm, byteCall_pos s (dataBits b p),
    hahead.trans_le hshort, fun hok => hahead.trans_le (hframe ?_)⟩
  obtain ⟨-, c, hc⟩ | ⟨hst, -⟩ := scanStatus_cases (s.byteScan (dataBits b p))
  · exact Option.isSome_of_eq_some hc
  · rw [hst] at hok
    exact absurd hok nofun

/-! ### The frames of one logical stream (R245) -/

/-- What both modes find in the stream v from position p on: scan after scan, each from where the one before accepted, until
one finds no frame. -/
def acceptedFrom (v : View) : Nat → Nat → List (Nat × Frame) × Nat
  | 0, p => ([], p)
  | turns + 1, p =>
    match (scanFrom v p).frame with
    | none => ([], (scanFrom v p).pos)
    | some c => (((scanFrom v p).pos, c.frame) :: (acceptedFrom v turns (scanFrom v p).pos).1,
        (acceptedFrom v turns (scanFrom v p).pos).2)

section AcceptedFrom

variable {v : View} {p : Nat}

theorem acceptedFrom_of_none (turns : Nat) (hnone : (scanFrom v p).frame = none) :
    acceptedFrom v (turns + 1) p = ([], (scanFrom v p).pos) := by
  simp [acceptedFrom, hnone]

theorem acceptedFrom_of_some (turns : Nat) {c : Candidate} (hsome : (scanFrom v p).frame = some c) :
    acceptedFrom v (turns + 1) p = (((scanFrom v p).pos, c.frame) :: (acceptedFrom v turns (scanFrom v p).pos).1,
      (acceptedFrom v turns (scanFrom v p).pos).2) := by
  simp [acceptedFrom, hsome]

/-- Where a scan of the stream so far ran out, the walk over the longer stream may as well begin (R185 item 6). -/
theorem acceptedFrom_extend_of_none (more : List Bool) (turns : Nat) (hnone : (scanFrom v p).frame = none) :
    acceptedFrom (v.extend more) (turns + 1) p = acceptedFrom (v.extend more) (turns + 1) (scanFrom v p).pos := by
  simp only [acceptedFrom, scanFrom_extend v more p hnone, ScanEnd.addReasons_frame, ScanEnd.addReasons_pos]

/-- Where it accepted, the walk over the longer stream accepts the same frame and goes on (R185 item 6). -/
theorem acceptedFrom_extend_of_some (more : List Bool) (turns : Nat) {c : Candidate}
    (hsome : (scanFrom v p).frame = some c) : acceptedFrom (v.extend more) (turns + 1) p =
      (((scanFrom v p).pos, c.frame) :: (acceptedFrom (v.extend more) turns (scanFrom v p).pos).1,
        (acceptedFrom (v.extend more) turns (scanFrom v p).pos).2) := by
  have hscan := scanFrom_extend_of_some more p hsome
  rw [acceptedFrom_of_some turns ((congrArg ScanEnd.frame hscan).trans hsome), hscan]

end AcceptedFrom

theorem View.length_extend (v : View) (more : List Bool) : (v.extend more).stream.length = v.stream.length + more.length :=
  List.length_append

/-- Two drops are one (R132). -/
theorem View.drop_drop {v : View} {k : Nat} (hk : k ≤ v.stream.length) (j : Nat) : (v.drop k).drop j = v.drop (k + j) := by
  simp only [View.drop, prev2At_drop _ _ _ _ hk, List.drop_drop]

/-- A drop of bits that are there does not meet the bits that come after (R66). -/
theorem View.extend_drop {v : View} {k : Nat} (hk : k ≤ v.stream.length) (more : List Bool) :
    (v.extend more).drop k = (v.drop k).extend more := by
  simp only [View.drop, View.extend, prev2At_append _ _ _ hk, List.drop_append_of_le_length hk]

/-- A scan after the drop of the first k bits ends where the scan from k does (R185 item 5). -/
theorem scanFrom_eq_shift {v : View} {k : Nat} (hk : k ≤ v.stream.length) :
    scanFrom v k = (scanFrom (v.drop k) 0).shift k := scanFrom_drop hk 0

/-- Raw-mode calls with exact discards walk over the stream: between two calls PREV2 is kept up to date (R241, R245). -/
theorem rawCalls_eq_acceptedFrom (v : View) (turns : Nat) (u : State) (base : Nat) (hbase : base ≤ v.stream.length)
    (hview : u.viewOf (v.stream.drop base) = v.drop base) : rawCalls turns v.stream u base = acceptedFrom v turns base := by
  induction turns generalizing u base with
  | zero => rfl
  | succ turns ih =>
    have hscan : scanFrom v base = (u.rawScan (v.stream.drop base)).shift base := by
      rw [State.rawScan, hview, scanFrom_eq_shift hbase]
    have hpos : (scanFrom v base).pos = base + (u.rawScan (v.stream.drop base)).pos := by rw [hscan]; rfl
    have hframe : (scanFrom v base).frame = (u.rawScan (v.stream.drop base)).frame := by rw [hscan]; rfl
    obtain ⟨hconsumed, hvalid, hregs⟩ := rawCall_reports u (v.stream.drop base)
    rw [rawCalls_succ, hconsumed, hvalid, ← hframe, ← hpos]
    cases hc : (scanFrom v base).frame with
    | none => rw [acceptedFrom_of_none turns hc]; rfl
    | some c =>
      have hnext := rawCall_viewOf u (v.stream.drop base)
      rw [hview, View.drop_drop hbase, List.drop_drop, ← hpos] at hnext
      rw [← hframe, hc] at hregs
      rw [acceptedFrom_of_some turns hc, ih _ _ (scanFrom_bounds v hbase).2 hnext, hregs]
      rfl

/-- The Carry cursor s of byte-with-padding mode after the stream v, of which `base` bits are consumed: it holds the others, and
the scan of the last call stopped for want of bits. -/
structure CursorOver (s : State) (v : View) (base : Nat) : Prop where
  built : s.built = true
  carry : s.cmode = .carry
  pos_eq : s.pos = 0
  base_le : base ≤ v.stream.length
  view_eq : s.viewOf s.stream = v.drop base
  waiting : undecided v base

namespace CursorOver

variable {s : State} {v : View} {base : Nat} (h : CursorOver s v base)
include h

/-- The cursor is short (R247). -/
theorem length_le : s.stream.length ≤ 299 := by
  have hstream : s.stream = v.stream.drop base := congrArg View.stream h.view_eq
  have hlt := sub_lt_of_undecided h.waiting
  rw [hstream, List.length_drop]
  omega

/-- The scan of the next call reads the longer stream from `base` on. -/
theorem viewOf_append (bits : List Bool) : s.viewOf (s.stream ++ bits) = (v.extend bits).drop base := by
  rw [View.extend_drop h.base_le, ← h.view_eq]
  rfl

theorem base_le_extend (bits : List Bool) : base ≤ (v.extend bits).stream.length :=
  h.base_le.trans (by rw [View.length_extend]; exact Nat.le_add_right _ _)

theorem scanFrom_extend_eq (bits : List Bool) : scanFrom (v.extend bits) base = (s.byteScan bits).shift base := by
  rw [State.byteScan, h.viewOf_append, h.pos_eq]
  exact scanFrom_eq_shift (h.base_le_extend bits)

/-- A call with at most 8 bits leaves such a cursor after the longer stream: without a frame the scan stopped for want of bits,
and with one fewer than 8 bits are left. -/
theorem byteCall {bits : List Bool} (hbits : bits.length ≤ 8) :
    CursorOver (s.byteCall bits) (v.extend bits) (scanFrom (v.extend bits) base).pos where
  built := (byteCall_built s bits).trans h.built
  carry := (byteCall_cmode s bits).trans h.carry
  pos_eq := byteCall_pos s bits
  base_le := (scanFrom_bounds _ (h.base_le_extend bits)).2
  view_eq := by
    rw [byteCall_viewOf h.carry, h.viewOf_append, View.drop_drop (h.base_le_extend bits), h.scanFrom_extend_eq]
    rfl
  waiting := by
    cases hframe : (scanFrom (v.extend bits) base).frame with
    | none => exact undecided_of_scanFrom_none hframe
    | some c =>
      have hshort := sub_lt_of_undecided h.waiting
      have hforward := add_le_pos_of_scanFrom_some hframe
      exact .inl (by rw [View.length_extend]; omega)

theorem answer (st : Status) (res : Word) : CursorOver (s.answer st res) v base := { h with }

/-- One DEC.BYTE is a scan of the longer stream from `base`: it consumes up to where that scan ends and reports its frame. -/
theorem decByte (e : SBEntry) : ∃ t : State, exec (.decByte e.byte e.pad) s = .next t ∧
    CursorOver t (v.extend (dataBits e.byte e.pad)) (scanFrom (v.extend (dataBits e.byte e.pad)) base).pos ∧
    base + t.consumed = (scanFrom (v.extend (dataBits e.byte e.pad)) base).pos ∧
    t.frameValid = (scanFrom (v.extend (dataBits e.byte e.pad)) base).frame.isSome ∧
    t.frame = ((scanFrom (v.extend (dataBits e.byte e.pad)) base).frame.map Candidate.frame).getD s.frame := by
  have hcursor := h.byteCall (bits := dataBits e.byte e.pad) (by simp)
  obtain ⟨hconsumed, hvalid, hregs⟩ := byteCall_reports h.carry (bits := dataBits e.byte e.pad)
  refine ⟨_, exec_decByte_ok h.built h.carry (room_of_short h.length_le), hcursor.answer _ _, ?_, ?_, ?_⟩
  all_goals rw [h.scanFrom_extend_eq]
  · exact congrArg (base + ·) hconsumed
  · exact hvalid
  · exact hregs

end CursorOver

theorem View.extend_append (v : View) (as bs : List Bool) : v.extend (as ++ bs) = (v.extend as).extend bs := by
  simp only [View.extend, List.append_assoc]

/-- Byte-with-padding mode walks over the whole stream, however it is cut into bytes (R245). -/
theorem feedBytes_eq_acceptedFrom (entries : List SBEntry) (v : View) (s : State) (base turns : Nat)
    (h : CursorOver s v base) (hturns : (v.extend (strip entries true)).stream.length - base < turns) :
    feedBytes entries s base = acceptedFrom (v.extend (strip entries true)) turns base := by
  induction entries generalizing v s base turns with
  | nil =>
    obtain ⟨turns, rfl⟩ := Nat.exists_eq_add_one_of_ne_zero (Nat.ne_zero_of_lt hturns)
    have hnil : v.extend (strip [] true) = v := by simp [View.extend]
    obtain ⟨hpos, hnone⟩ := scanFrom_of_undecided h.waiting
    rw [hnil, acceptedFrom_of_none turns hnone, hpos, feedBytes_nil]
  | cons e rest ih =>
    obtain ⟨turns, rfl⟩ := Nat.exists_eq_add_one_of_ne_zero (Nat.ne_zero_of_lt hturns)
    obtain ⟨t, hexec, hcursor, hconsumed, hvalid, hregs⟩ := h.decByte e
    obtain ⟨hle, hend⟩ := scanFrom_bounds _ (h.base_le_extend (dataBits e.byte e.pad))
    rw [strip_cons, if_pos rfl, View.extend_append] at hturns ⊢
    rw [feedBytes_cons e rest s t base hexec, hvalid, hconsumed]
    cases hframe : (scanFrom (v.extend (dataBits e.byte e.pad)) base).frame with
    | none =>
      rw [acceptedFrom_extend_of_none _ turns hframe, ← ih _ t _ _ hcursor (by omega)]
      rfl
    | some c =>
      have hforward := add_le_pos_of_scanFrom_some hframe
      have hleft : ((v.extend (dataBits e.byte e.pad)).extend (strip rest true)).stream.length -
          (scanFrom (v.extend (dataBits e.byte e.pad)) base).pos < turns := by
        rw [View.length_extend] at hturns ⊢
        omega
      rw [hframe] at hregs
      rw [acceptedFrom_extend_of_some _ turns hframe, ← ih _ t _ _ hcursor hleft, hregs]
      rfl

/-- Settles O59: both modes walk over the stream of all the data bits, from two carried bits 00. -/
theorem bothModesDecodeTheSameFrames : Obligations.BothModesDecodeTheSameFrames := by
  refine ⟨fun s hb hm => ?_, fun entries s u hb hm hstream hpos hprev2 huprev2 hparity hthresh => ?_⟩
  · obtain ⟨hconsumed, hvalid, -⟩ := rawCall_reports s (strip s.sb false)
    simp only [hconsumed, hvalid]
    exact exec_decRaw hb hm
  · have hempty : CursorOver s ⟨s.parityEn, s.thresh, 0, []⟩ 0 :=
      { built := hb, carry := hm, pos_eq := hpos, base_le := le_refl 0, waiting := .inl (Nat.zero_lt_succ 7)
        view_eq := by simp [View.drop, hstream, hprev2] }
    have hfresh : u.viewOf (strip entries true) = View.drop ⟨s.parityEn, s.thresh, 0, strip entries true⟩ 0 := by
      simp [View.drop, huprev2, hparity, hthresh]
    calc feedBytes entries s 0
        = acceptedFrom ⟨s.parityEn, s.thresh, 0, strip entries true⟩ ((strip entries true).length + 1) 0 :=
          feedBytes_eq_acceptedFrom entries _ s 0 _ hempty (Nat.lt_succ_self _)
      _ = rawCalls ((strip entries true).length + 1) (strip entries true) u 0 :=
          (rawCalls_eq_acceptedFrom ⟨s.parityEn, s.thresh, 0, strip entries true⟩ _ u 0 (Nat.zero_le _) hfresh).symm

end Sys2Proof.Machine

/-! ## Proofs for 45_system: INIT, RDREG and WRFRM (R260 to R262)

RDREG and WRFRM name their register by its number, so `Reg.number` is the table of R21 read the other way round; with it each
command has one fact for every register, which the clauses of its statement instantiate. -/

namespace Sys2Proof.Machine

/-! ### Register numbers (R21) -/

/-- The number of a register (R21). -/
def Reg.number : Reg → Nat
  | .cfg => 0
  | .status => 1
  | .pos => 2
  | .len => 3
  | .sbn => 4
  | .consumed => 5
  | .vflags => 6
  | .frame .tlm => 7
  | .frame .how => 8
  | .frame (.fld k) => k.val + 9

theorem Reg.ofNumber_of_toNat_eq {reg : BitVec 5} {r : Reg} (h : reg.toNat = r.number) : Reg.ofNumber reg = some r := by
  rw [Reg.ofNumber, h]
  cases r with
  | frame f =>
    cases f with
    | tlm => rfl
    | how => rfl
    | fld k => exact dif_pos k.isLt
  | _ => rfl

theorem FrameReg.ofNumber_of_toNat_eq {reg : BitVec 5} {f : FrameReg} (h : reg.toNat = (Reg.frame f).number) :
    FrameReg.ofNumber reg = some f := by
  rw [FrameReg.ofNumber, Reg.ofNumber_of_toNat_eq h]

/-! ### The three commands -/

theorem threshLegal_eq_true_iff {t : BitVec 4} : threshLegal t = true ↔ 1 ≤ t.toNat ∧ t.toNat ≤ 10 := by
  simp [threshLegal]

/-- INIT with a THRESH that has a meaning builds a fresh state (R260). -/
theorem exec_init_of_legal (p : Bool) {t : BitVec 4} (s : State) (ht : threshLegal t = true) :
    exec (.init p t) s = .next ((s.build p t).answer .ok 0) :=
  if_pos ht

section RegisterAccess

variable {s : State} (hb : s.built = true) {reg : BitVec 5}
include hb

/-- RDREG of a built core returns the register its number names, and leaves the state (R261). -/
theorem rdreg_answers {r : Reg} (h : reg.toNat = r.number) : Answers (.rdreg reg) s s .ok (s.readReg r) := by
  simp only [Answers, exec, execRdreg, Reg.ofNumber_of_toNat_eq h]
  exact whenLegal_legal s CMode.any _ hb (any_eq_true s.cmode)

/-- WRFRM of a built core writes the frame register its number names (R262). -/
theorem exec_wrfrm_ok {f : FrameReg} (v : Word) (h : reg.toNat = (Reg.frame f).number) :
    exec (.wrfrm reg v) s = .next ((s.writeFrameReg f v).answer .ok 0) := by
  simp only [exec, execWrfrm, FrameReg.ofNumber_of_toNat_eq h]
  exact whenLegal_legal s CMode.any _ hb (any_eq_true s.cmode)

end RegisterAccess

/-- RDREG of a register before the first INIT (R120, R261). -/
theorem rdreg_failsWith_wrongMode {s : State} (hb : s.built = false) {reg : BitVec 5} (hreg : reg.toNat ≤ 19) :
    FailsWith (.rdreg reg) s .wrongMode := by
  have hwf : (Instr.rdreg reg).wf = true := decide_eq_true hreg
  obtain ⟨r, hexec⟩ := exec_rdreg_of_wf hwf s
  exact failsWith_wrongMode_of_not_built hexec hb

/-- WRFRM of a frame register before the first INIT (R120, R262). -/
theorem wrfrm_failsWith_wrongMode {s : State} (hb : s.built = false) {reg : BitVec 5} (v : Word) (hlo : 7 ≤ reg.toNat)
    (hhi : reg.toNat ≤ 19) : FailsWith (.wrfrm reg v) s .wrongMode := by
  have hwf : (Instr.wrfrm reg v).wf = true := by simp [Instr.wf, hlo, hhi]
  obtain ⟨f, hexec⟩ := exec_wrfrm_of_wf hwf s
  exact failsWith_wrongMode_of_not_built hexec hb

/-- Settles O16: INIT builds from nothing but its operands, or fails on its THRESH. -/
theorem initBuildsAFreshInstance : Obligations.InitBuildsAFreshInstance := by
  intro p t s a
  refine ⟨decode_encode_cmd (.init p t) rfl a, fun hlo hhi => ?_, fun ht => init_failsWith_badCommand s p ?_⟩
  · exact exec_init_of_legal p s (threshLegal_eq_true_iff.mpr ⟨hlo, hhi⟩)
  · rw [← Bool.not_eq_true, threshLegal_eq_true_iff]
    omega

/-- Settles O17: the two failures in the order of R288, and `rdreg_answers` for each register. -/
theorem rdregReadsEveryRegister : Obligations.RdregReadsEveryRegister := by
  intro reg s a
  refine ⟨decode_encode_cmd (.rdreg reg) rfl a, rdreg_failsWith_badCommand s,
    fun hreg hb => rdreg_failsWith_wrongMode hb hreg, fun hb => ?_⟩
  exact ⟨rdreg_answers hb (r := .cfg), rdreg_answers hb (r := .status), rdreg_answers hb (r := .pos),
    rdreg_answers hb (r := .len), rdreg_answers hb (r := .sbn), rdreg_answers hb (r := .consumed),
    rdreg_answers hb (r := .vflags), rdreg_answers hb (r := .frame .tlm), rdreg_answers hb (r := .frame .how),
    fun k => rdreg_answers hb (r := .frame (.fld k))⟩

/-- Settles O18: the two failures in the order of R288, and `exec_wrfrm_ok` for each frame register. -/
theorem wrfrmWritesOneFrameRegister : Obligations.WrfrmWritesOneFrameRegister := by
  intro reg v s
  refine ⟨decodeOfEncodeIsTheCommand (.wrfrm reg v), wrfrm_failsWith_badCommand s v,
    fun hlo hhi hb => wrfrm_failsWith_wrongMode hb v hlo hhi, fun hb => ?_⟩
  exact ⟨exec_wrfrm_ok hb (f := .tlm) v, exec_wrfrm_ok hb (f := .how) v, fun k => exec_wrfrm_ok hb (f := .fld k) v⟩

end Sys2Proof.Machine

/-! ## Proofs for 60_exceptions: the statuses a command can answer, and what a failing command leaves (R280 to R293)

Everything here goes through one inversion lemma: `exec_hasEnding` says once, for every command, in which of three ways it can
end (success, a failure that its row of R287 lists, the exhaustion of its scan) and with which response. -/

namespace Sys2Proof.Machine

/-! ### The ways a command ends -/

/-- The commands that contain a scan (R181, R241, R244). -/
def ContainsScan (i : Instr) : Prop := i = .syncScan ∨ i = .decRaw ∨ ∃ b p, i = .decByte b p

/-- The table of R287 without the exhaustion of a scan: `FailureRow i st` when command i can end by `fail(st)`. -/
inductive FailureRow : Instr → Status → Prop
  | operand {i : Instr} (hwf : i.wf = false) : FailureRow i .badCommand
  | mode {i : Instr} (hi : ∀ p th, i ≠ .init p th) : FailureRow i .wrongMode
  | bcPeekShort {n : BitVec 24} : FailureRow (.bcPeek n) .insufficientData
  | sfDecShort : FailureRow .sfDec .insufficientData
  | sbPushFull {byte : Byte} {pad : BitVec 3} : FailureRow (.sbPush byte pad) .outOfRange
  | bcAdvBeyond {n : BitVec 24} : FailureRow (.bcAdv n) .outOfRange
  | bcPutFull {n : BitVec 24} {value : Word} : FailureRow (.bcPut n value) .outOfRange
  | bcAppendFull {byte : Byte} {pad : BitVec 3} : FailureRow (.bcAppend byte pad) .outOfRange
  | bcRdbBeyond {idx : BitVec 24} : FailureRow (.bcRdb idx) .outOfRange
  | sfEncFull : FailureRow .sfEnc .outOfRange
  | decByteFull {byte : Byte} {pad : BitVec 3} : FailureRow (.decByte byte pad) .outOfRange
  | sfDecIdentifier : FailureRow .sfDec .unsupportedSubframe
  | sfEncIdentifier : FailureRow .sfEnc .unsupportedSubframe

/-- `Ending i s u st res`: command i begun in state s may end by leaving u and answering `(st, res)`. -/
inductive Ending (i : Instr) (s : State) : State → Status → Word → Prop
  | success {u : State} {res : Word} : Ending i s u .ok res
  | failure {st : Status} (hrow : FailureRow i st) : Ending i s s st 0
  | exhaustion {u : State} (hscan : ContainsScan i) (hvalid : u.frameValid = false) :
      Ending i s u .insufficientData (resNat u.consumed)

/-- The outcome k of command i in state s is one of its endings. -/
def HasEnding (i : Instr) (s : State) (k : Result) : Prop :=
  ∃ (u : State) (st : Status) (res : Word), k = .next (u.answer st res) ∧ Ending i s u st res

section Endings

variable {i : Instr} {s : State} {k : Result}

theorem HasEnding.of_succeed {u : State} {res : Word} : HasEnding i s (succeed u res) := ⟨u, .ok, res, rfl, .success⟩

theorem HasEnding.of_fail {st : Status} (hrow : FailureRow i st) : HasEnding i s (fail s st) := ⟨s, st, 0, rfl, .failure hrow⟩

/-- A bounds check before an ending, when its failure is in the command's row. -/
theorem HasEnding.of_bounds {c : Prop} [Decidable c] {st : Status} (hk : HasEnding i s k) (hrow : FailureRow i st) :
    HasEnding i s (if c then k else fail s st) := by
  split
  · exact hk
  · exact .of_fail hrow

/-- The mode check before an ending; INIT alone has none (R120, R286). -/
theorem HasEnding.of_whenLegal {legal : CMode → Bool} (hi : ∀ p th, i ≠ .init p th) (hk : HasEnding i s k) :
    HasEnding i s (whenLegal s legal k) := by
  obtain ⟨-, -, hlegal⟩ | ⟨-, hillegal⟩ := whenLegal_cases s legal k
  · rwa [hlegal]
  · rw [hillegal]
    exact .of_fail (.mode hi)

/-- The response of a scan, when it answers CONSUMED and FRAME_VALID tells whether it found a frame (R181, R246). -/
theorem HasEnding.of_scan {u : State} {e : ScanEnd} {res : Word} (hscan : ContainsScan i) (hvalid : u.frameValid = e.frame.isSome)
    (hres : res = resNat u.consumed) : HasEnding i s (finish u (scanStatus e) res) := by
  subst hres
  obtain ⟨hst, -⟩ | ⟨hst, hnone⟩ := scanStatus_cases e <;> rw [hst]
  · exact .of_succeed
  · exact ⟨u, .insufficientData, _, rfl, .exhaustion hscan (by rw [hvalid, hnone]; rfl)⟩

/-- FRAME_VALID after a scan of the open cursor (R181). -/
theorem scan_frameValid (u : State) : u.scan.frameValid = (scanFrom u.view u.pos).frame.isSome :=
  State.finishScan_frameValid u _

/-- An operand value with no meaning fails in every state, before the mode check (R95, R288). -/
theorem failsWith_badCommand_of_not_wf (hwf : i.wf = false) (s : State) : FailsWith i s .badCommand := by
  cases i with
  | init p th => exact init_failsWith_badCommand s p hwf
  | rdreg reg => exact rdreg_failsWith_badCommand s (Nat.lt_of_not_le (of_decide_eq_false hwf))
  | wrfrm reg v =>
    simp only [Instr.wf, ← Bool.decide_and, decide_eq_false_iff_not] at hwf
    exact wrfrm_failsWith_badCommand s v (by omega)
  | bcPeek n => exact bcPeek_failsWith_badCommand s (Nat.lt_of_not_le (of_decide_eq_false hwf))
  | bcPut n v => exact bcPut_failsWith_badCommand s v (Nat.lt_of_not_le (of_decide_eq_false hwf))
  | _ => exact absurd hwf nofun

/-- A command whose operands have a meaning ends by success, by a failure of its row, or by the exhaustion of its scan. -/
theorem exec_hasEnding_of_wf (hwf : i.wf = true) (s : State) : HasEnding i s (exec i s) := by
  cases i with
  | init p th =>
    rw [exec_init_of_legal p s hwf]
    exact .of_succeed
  | rdreg reg =>
    obtain ⟨r, hexec⟩ := exec_rdreg_of_wf hwf s
    rw [hexec]
    exact .of_whenLegal nofun .of_succeed
  | wrfrm reg v =>
    obtain ⟨f, hexec⟩ := exec_wrfrm_of_wf hwf s
    rw [hexec]
    exact .of_whenLegal nofun .of_succeed
  | bcPeek n =>
    rw [exec_bcPeek (of_decide_eq_true hwf)]
    exact .of_whenLegal nofun (.of_bounds .of_succeed .bcPeekShort)
  | bcPut n v =>
    rw [exec_bcPut (of_decide_eq_true hwf)]
    exact .of_whenLegal nofun (.of_bounds .of_succeed .bcPutFull)
  | sbPush byte pad => exact .of_whenLegal nofun (.of_bounds .of_succeed .sbPushFull)
  | bcAdv n => exact .of_whenLegal nofun (.of_bounds .of_succeed .bcAdvBeyond)
  | bcAppend byte pad => exact .of_whenLegal nofun (.of_bounds .of_succeed .bcAppendFull)
  | bcRdb idx => exact .of_whenLegal nofun (.of_bounds .of_succeed .bcRdbBeyond)
  | sfDec => exact .of_whenLegal nofun (.of_bounds (.of_bounds .of_succeed .sfDecIdentifier) .sfDecShort)
  | sfEnc =>
    refine .of_whenLegal nofun (.of_bounds ?_ .sfEncFull)
    split
    · exact .of_succeed
    · exact .of_fail .sfEncIdentifier
  | syncScan => exact .of_whenLegal nofun (.of_scan (.inl rfl) (scan_frameValid s) rfl)
  | decRaw =>
    exact .of_whenLegal nofun (.of_scan (.inr (.inl rfl)) ((State.closeCursor_frameValid _).trans (scan_frameValid s.openRaw))
      (congrArg resNat (State.closeCursor_consumed _).symm))
  | decByte byte pad =>
    exact .of_whenLegal nofun (.of_bounds (.of_scan (.inr (.inr ⟨byte, pad, rfl⟩))
      ((State.dropConsumed_frameValid _).trans (scan_frameValid (s.appendByte byte pad)))
      (congrArg resNat (State.dropConsumed_consumed _).symm)) .decByteFull)
  | sbClr | bcOpen | bcOpenW | bcOpenC | bcClose | bcPos | bcDrop | parComp | parVrfy => exact .of_whenLegal nofun .of_succeed

/-- The inversion lemma of the responses: every command, in every state, ends in one of its endings (R287, R290, R293). -/
theorem exec_hasEnding (i : Instr) (s : State) : HasEnding i s (exec i s) := by
  cases hwf : i.wf with
  | true => exact exec_hasEnding_of_wf hwf s
  | false =>
    rw [failsWith_badCommand_of_not_wf hwf s]
    exact .of_fail (.operand hwf)

end Endings

/-! ### What an ending says of its status -/

section Statuses

variable {i : Instr} {s u : State} {st : Status} {res : Word}

/-- ParityMismatch is in no row (R284). -/
theorem FailureRow.ne_parityMismatch (h : FailureRow i st) : st ≠ .parityMismatch := by
  cases h <;> exact nofun

/-- The InsufficientData of a command with a scan is the exhaustion of the scan alone (R184, R246). -/
theorem FailureRow.not_containsScan (h : FailureRow i .insufficientData) : ¬ ContainsScan i := by
  cases h <;> simp [ContainsScan]

theorem Ending.ne_parityMismatch (h : Ending i s u st res) : st ≠ .parityMismatch := by
  cases h with
  | success | exhaustion => exact nofun
  | failure hrow => exact hrow.ne_parityMismatch

/-- No effect of a command touches the pending requests. -/
theorem Effect.requests_eq (h : Effect s i u) : u.requests = s.requests := by
  cases h <;> simp [State.scan, State.openRaw, State.appendByte]

/-- Nor does INIT: the requests are the host's (R3). -/
theorem requests_eq_of_exec {t : State} (hexec : exec i s = .next t) : t.requests = s.requests := by
  by_cases hi : ∃ p th, i = .init p th
  · obtain ⟨p, th, rfl⟩ := hi
    obtain ⟨-, hinit⟩ | ⟨-, hinit⟩ := exec_init_cases p th s
    all_goals
      obtain rfl := Host.Outcome.next.inj (hinit.symm.trans hexec)
      rfl
  · obtain ⟨u, st, res, hu, heff⟩ := exec_hasEffect i s fun p th h => hi ⟨p, th, h⟩
    obtain rfl := Host.Outcome.next.inj (hu.symm.trans hexec)
    exact heff.requests_eq

end Statuses

/-! ### The statements -/

/-- Settles O7: one case per ending. -/
theorem failingCommandsWriteNothing : Obligations.FailingCommandsWriteNothing := by
  intro i s
  obtain ⟨u, st, res, hexec, hend⟩ := exec_hasEnding i s
  refine ⟨_, st, res, hexec, State.answer_response u st res, requests_eq_of_exec hexec, hend.ne_parityMismatch, ?_⟩
  cases hend with
  | success => exact .inl rfl
  | failure hrow => exact .inr (.inl ⟨rfl, rfl, fun ⟨hst, hscan⟩ => (hst ▸ hrow).not_containsScan hscan⟩)
  | exhaustion hscan hvalid => exact .inr (.inr ⟨rfl, rfl, hvalid, hscan⟩)

/-- Settles O8: each row of R287 holds one command and one status. -/
theorem eachCommandAnswersOnlyItsStatuses : Obligations.EachCommandAnswersOnlyItsStatuses := by
  intro i s t st res hexec hresp
  obtain ⟨u, st', res', hu, hend⟩ := exec_hasEnding i s
  obtain rfl := Host.Outcome.next.inj (hu.symm.trans hexec)
  obtain ⟨rfl, rfl⟩ := Response.mk.inj (Option.some.inj hresp)
  cases hend with
  | success => simp
  | failure hrow =>
    cases hrow with
    | operand hwf => simpa using hwf
    | mode hi => simpa using hi
    | _ => simp
  | exhaustion hscan => exact ⟨nofun, nofun, fun _ => hscan.elim (.inr ∘ .inl) (.inr ∘ .inr ∘ .inr), nofun, nofun, nofun⟩

/-- The codes of R280 that are in use, 4 apart. -/
theorem Status.code_range (st : Status) (hst : st ≠ .parityMismatch) : st.code.toNat ≤ 6 ∧ st.code ≠ 4 := by
  cases st with
  | parityMismatch => exact absurd rfl hst
  | _ => decide

/-- Settles O60: the codes by evaluation; the statuses and their RES are those of O7. -/
theorem statusCodesAreTheTable : Obligations.StatusCodesAreTheTable := by
  refine ⟨by decide, fun i s t r hexec hresp => ?_⟩
  obtain ⟨t', st, res, hexec', hresp', -, hparity, hend⟩ := failingCommandsWriteNothing i s
  obtain rfl := Host.Outcome.next.inj (hexec'.symm.trans hexec)
  obtain rfl := Option.some.inj (hresp'.symm.trans hresp)
  obtain ⟨hle, hne⟩ := st.code_range hparity
  refine ⟨hle, hne, fun hcode => ?_⟩
  obtain rfl | ⟨-, hres, -⟩ | ⟨rfl, hres, -, hscan⟩ := hend
  · exact absurd rfl hcode
  · exact .inl hres
  · exact .inr ⟨rfl, hres, hscan⟩

end Sys2Proof.Machine

/-! ## Proofs for 70_reset_and_hazards: the power-on state, and what an unbuilt core can show (R310)

While BUILT = 0 every column of the mode matrix is WrongMode but INIT's, and INIT reads nothing of the state it builds over. So
the response to any command is a function of the command alone. -/

namespace Sys2Proof.Machine

section Unbuilt

variable {i : Instr} {s : State}

/-- The mode matrix of a core that is not built: its rows but INIT's all ask for BUILT = 1 (R120). -/
theorem failsWith_wrongMode_of_unbuilt (hwf : i.wf = true) (hi : ∀ p th, i ≠ .init p th) (hb : s.built = false) :
    FailsWith i s .wrongMode := by
  obtain ⟨hfails, -⟩ := modeMatrixIsRespected i s hwf
  cases i with
  | init p th => exact absurd rfl (hi p th)
  | rdreg | wrfrm | bcClose | parComp | parVrfy => exact hfails hb
  | _ => exact hfails (by simp only [hb, Bool.false_and])

/-- Before the core is built every command but an INIT with a legal THRESH fails, its operand check first (R288). -/
theorem failsWith_of_unbuilt (hi : ∀ p th, i = .init p th → th.toNat = 0 ∨ 11 ≤ th.toNat) (hb : s.built = false) :
    FailsWith i s (if i.wf then .wrongMode else .badCommand) := by
  cases hwf : i.wf with
  | false => exact failsWith_badCommand_of_not_wf hwf s
  | true =>
    refine failsWith_wrongMode_of_unbuilt hwf (fun p th h => ?_) hb
    have hrange := hi p th h
    subst h
    obtain ⟨hlo, hhi⟩ := threshLegal_eq_true_iff.mp hwf
    omega

end Unbuilt

/-- A built state and its response hold nothing of the state before but the pending requests (R260). -/
theorem answer_build_congr {s u : State} (h : s.requests = u.requests) (p : Bool) (th : BitVec 4) (st : Status) (res : Word) :
    (s.build p th).answer st res = (u.build p th).answer st res := by
  simp only [State.answer, State.build, h]

/-- Settles O10: INIT builds the same state from both, and every failure is one of the command alone. -/
theorem unbuiltStateIsUnobservable : Obligations.UnbuiltStateIsUnobservable := by
  intro i s u hs hu hreq
  refine ⟨fun p th hi hlo hhi => ?_, fun hi => ⟨failsWith_of_unbuilt hi hs, failsWith_of_unbuilt hi hu⟩⟩
  subst hi
  have hlegal : threshLegal th = true := threshLegal_eq_true_iff.mpr ⟨hlo, hhi⟩
  refine ⟨_, exec_init_of_legal p s hlegal, ?_⟩
  rw [answer_build_congr hreq]
  exact exec_init_of_legal p u hlegal

/-- The model's power-on state is the one INIT builds with parity off and THRESH 1, but for BUILT, of which R39 does not speak
(log entry 2). -/
theorem reset_sound : State.reset.Sound := { State.reset.build_sound false (th := 1) rfl with }

/-- Settles O14: the invariant asks nothing of a core that is not built; the model's own values are sound all the same. -/
theorem resetIsUnbuiltAndSound : Obligations.ResetIsUnbuiltAndSound :=
  ⟨rfl, nofun, reset_sound, rfl, reset_memory_wf⟩

end Sys2Proof.Machine
